-- ==== Sys2Proof/Word.lean ====
section
/-! DEFINITION. The operand types of the core: the 64-bit Word and the byte of buffer memory (00_scope.md R7). -/

namespace Sys2Proof

/-- A Word: "an unsigned 64-bit integer", bit 0 the least significant (00_scope.md R7). -/
abbrev Word := BitVec 64

/-- One byte of buffer memory (20_memory.md R32). -/
abbrev Byte := BitVec 8

/-- The round-key schedule: exactly 54 Words (10_state.md R21). -/
abbrev Schedule := Vector Word 54

end Sys2Proof
end

