-- ==== Sys2Proof/Syntax.lean ====
section
/-! DEFINITION. The thirteen commands (30_encoding.md R52), the register names (10_state.md R11), the events
that reach the core, and the host-script syntax with its pseudo-instructions (30_encoding.md R57, R58). -/

namespace Sys2Proof

/-- The command set of 30_encoding.md R52, one constructor per row of the opcode table. `ROTL` alone has an
operand, the 6-bit immediate of R51. -/
inductive Instr where
  | nop
  | kexpE
  | kexpD
  | krev
  | blk
  | ecb
  | clrerr
  | rotl (amount : BitVec 6)
  | perm
  | g0
  | g1
  | a16x3
  | frnd
  deriving DecidableEq, Repr

/-- The named registers of 10_state.md R11. -/
inductive Reg where
  | key0 | key1 | blk0 | blk1 | src | dst | len | opa | res | cmd | status | id | nblk
  | rk (i : Fin 54)
  deriving DecidableEq, Repr

/-- What can happen to the core from outside, one event at a time (00_scope.md R6). -/
inductive Event where
  /-- The host's `RegWrite(n, v)` (30_encoding.md R49). -/
  | regWrite (n : BitVec 8) (v : Word)
  /-- The host's `RegRead(n)` (30_encoding.md R49). -/
  | regRead (n : BitVec 8)
  /-- The host places one byte in buffer memory, between commands (20_memory.md R31, 30_encoding.md R57). -/
  | memPlace (a : Word) (b : Byte)
  /-- The host reads one byte of buffer memory back, between commands (30_encoding.md R57). -/
  | memInspect (a : Word)
  /-- Reset between host transactions (70_reset_and_hazards.md R110, R111). -/
  | reset
  /-- The host writes `v` to `CMD` and a reset falls inside that command (70_reset_and_hazards.md R112), after
  `ticks` iterations of the sequencer; `half` says that the store then under way has written word0 only. -/
  | resetInside (v : Word) (ticks : Nat) (half : Bool)
  deriving DecidableEq, Repr

/-- What the host has learned from the core or from memory (00_scope.md R6). -/
inductive Observation where
  | register (n : BitVec 8) (v : Word)
  | byte (a : Word) (b : Byte)
  deriving DecidableEq, Repr

/-- How a script line names a register: by its name or by a number (30_encoding.md R57). -/
inductive RegRef where
  | name (r : Reg)
  | number (n : Nat)
  deriving DecidableEq, Repr

/-- A line of a host script, as written: the six forms of 30_encoding.md R57, then the pseudo-instructions of
R58. Numbers are unchecked here; `ScriptLine.wellFormed` checks them. -/
inductive ScriptLine where
  | wr (r : RegRef) (value : Nat)
  | rd (r : RegRef)
  | cmd (i : Instr)
  | cmdRotl (s : Nat)
  | memSet (addr n : Nat) (bytes : List Nat)
  | memGet (addr n : Nat)
  | setkey (k0 k1 : Nat)
  | setbuf (src dst len : Nat)
  | ldblk (w0 w1 : Nat)
  | encrypt (src dst len : Nat)
  | decrypt (src dst len : Nat)
  | unit (u : Instr) (a : Nat)
  | rotl (a s : Nat)
  deriving DecidableEq, Repr

end Sys2Proof
end

