-- ==== Sys2Proof/Decode.lean ====
section
/-! DEFINITION. The command format `C`, the decoder and the encoder (30_encoding.md R50 to R54), and the opcode
map's `match` and `mask` (R52). -/

namespace Sys2Proof

/-- Why a word is no command (30_encoding.md R53). All illegal words behave alike (R54); the names only say which
of R53's conditions failed first. -/
inductive Illegal where
  /-- bits 63:14 are not zero. -/
  | zeroField
  /-- `OPC` is assigned to no command. -/
  | unassignedOpcode
  /-- `IMM6` is not zero in a command other than `ROTL`. -/
  | immediateNotZero
  deriving DecidableEq, Repr

/-- `OPC`, bits 7:0 (30_encoding.md R50). -/
def fieldOpc (v : Word) : BitVec 8 := v.extractLsb' 0 8

/-- `IMM6`, bits 13:8 (30_encoding.md R50, R51). -/
def fieldImm6 (v : Word) : BitVec 6 := v.extractLsb' 8 6

/-- `ZERO`, bits 63:14 (30_encoding.md R50). -/
def fieldZero (v : Word) : BitVec 50 := v.extractLsb' 14 50

/-- The commands without an immediate, by opcode (30_encoding.md R52). -/
def fixedCommand (opc : BitVec 8) : Option Instr :=
  match opc.toNat with
  | 0x00 => some .nop
  | 0x01 => some .kexpE
  | 0x02 => some .kexpD
  | 0x03 => some .krev
  | 0x04 => some .blk
  | 0x05 => some .ecb
  | 0x06 => some .clrerr
  | 0x11 => some .perm
  | 0x12 => some .g0
  | 0x13 => some .g1
  | 0x14 => some .a16x3
  | 0x15 => some .frnd
  | _ => none

/-- The decoder of 30_encoding.md R53, total on the 2^64 words. -/
def decode (v : Word) : Except Illegal Instr :=
  if fieldZero v ≠ 0 then .error .zeroField
  else if fieldOpc v = 0x10 then .ok (.rotl (fieldImm6 v))
  else
    match fixedCommand (fieldOpc v) with
    | none => .error .unassignedOpcode
    | some i => if fieldImm6 v = 0 then .ok i else .error .immediateNotZero

/-- A command's opcode (30_encoding.md R52). -/
def opcodeOf : Instr → BitVec 8
  | .nop => 0x00
  | .kexpE => 0x01
  | .kexpD => 0x02
  | .krev => 0x03
  | .blk => 0x04
  | .ecb => 0x05
  | .clrerr => 0x06
  | .rotl _ => 0x10
  | .perm => 0x11
  | .g0 => 0x12
  | .g1 => 0x13
  | .a16x3 => 0x14
  | .frnd => 0x15

/-- A command's `IMM6`: the amount of `ROTL`, 0 in every other command (30_encoding.md R50). -/
def immediateOf : Instr → BitVec 6
  | .rotl s => s
  | .nop | .kexpE | .kexpD | .krev | .blk | .ecb | .clrerr | .perm | .g0 | .g1 | .a16x3 | .frnd => 0

/-- The command word: `OPC | (IMM6 << 8)` (30_encoding.md R50). -/
def encode (i : Instr) : Word :=
  (opcodeOf i).setWidth 64 ||| ((immediateOf i).setWidth 64 <<< 8)

/-- A row of the opcode map: "a word `v` selects the row when `v & mask = match`" (30_encoding.md R52). -/
structure OpcodeRow where
  mnemonic : String
  pattern : Word
  mask : Word
  deriving DecidableEq, Repr

/-- The mask of every row but `ROTL`'s: all 64 bits are fixed (30_encoding.md R52). -/
def fullMask : Word := 0xFFFFFFFFFFFFFFFF

/-- The row of the opcode map a command belongs to, transcribed from 30_encoding.md R52. -/
def rowOf : Instr → OpcodeRow
  | .nop => ⟨"NOP", 0x0000000000000000, fullMask⟩
  | .kexpE => ⟨"KEXP.E", 0x0000000000000001, fullMask⟩
  | .kexpD => ⟨"KEXP.D", 0x0000000000000002, fullMask⟩
  | .krev => ⟨"KREV", 0x0000000000000003, fullMask⟩
  | .blk => ⟨"BLK", 0x0000000000000004, fullMask⟩
  | .ecb => ⟨"ECB", 0x0000000000000005, fullMask⟩
  | .clrerr => ⟨"CLRERR", 0x0000000000000006, fullMask⟩
  | .rotl _ => ⟨"ROTL", 0x0000000000000010, 0xFFFFFFFFFFFFC0FF⟩
  | .perm => ⟨"PERM", 0x0000000000000011, fullMask⟩
  | .g0 => ⟨"G0", 0x0000000000000012, fullMask⟩
  | .g1 => ⟨"G1", 0x0000000000000013, fullMask⟩
  | .a16x3 => ⟨"A16X3", 0x0000000000000014, fullMask⟩
  | .frnd => ⟨"FRND", 0x0000000000000015, fullMask⟩

/-- Whether a word selects a row (30_encoding.md R52). -/
def OpcodeRow.selects (row : OpcodeRow) (v : Word) : Bool := decide (v &&& row.mask = row.pattern)

/-- The instruction the decoder reads from a row's bits, numbered as the opcode table numbers them. A command is one
64-bit value written to `CMD`, so the number is the word itself and no byte order enters. -/
def decodeTableWord (nbits w : Nat) : Option Instr :=
  match decode (BitVec.ofNat 64 (w % 2 ^ nbits)) with
  | .ok i => some i
  | .error _ => none

end Sys2Proof
end

