-- ==== Sys2Proof/Config.lean ====
section
/-! DEFINITION. The parameters of 00_scope.md R5 and the model's one source of free values. -/

namespace Sys2Proof

/-- `BLOCK_BYTES`: a block is 16 bytes (00_scope.md R5). -/
def Config.blockBytes : Nat := 16

/-- `KEY_BYTES`: a master key is 16 bytes (00_scope.md R5). -/
def Config.keyBytes : Nat := 16

/-- `ROUNDS`: 54, part of the cipher's definition (00_scope.md R5, 43_key_schedule.md R79). -/
def Config.rounds : Nat := 54

/-- One past the highest buffer-memory byte address: `ADDR_BITS` is 64 (00_scope.md R5, 20_memory.md R31). -/
def Config.addressEnd : Nat := 2 ^ 64

/-- The free values: `freeWord k` is the k-th unspecified Word a run meets, and nothing in Lean can say
what it is. Only a reset event uses them, for the registers whose value after reset is unspecified
(10_state.md R28, 93_implementation_defined.md U1). DESIGN CHOICE, safe: log 2. -/
opaque Config.freeWord : Nat → Word

end Sys2Proof
end

