-- ==== Sys2Proof/Machine/State.lean ====
section
/-! DEFINITION. The state of the machine (10_state.md, 20_memory.md), the reasons a step can stop, and the state
right after reset. -/

namespace Sys2Proof.Machine

/-- The error codes of 60_exceptions.md R95. Codes 7 to 15 are never produced, so the field ranges over these
seven values (93_implementation_defined.md U8; log 15). -/
inductive ErrCode where
  /-- 0: no error recorded. -/
  | noError
  /-- 1, `E_ILLCMD`: the word written to `CMD` is no command. -/
  | illCmd
  /-- 2, `E_NOKEY`: no schedule belongs to the current key. -/
  | noKey
  /-- 3, `E_LEN`: `LEN` is not a multiple of 16. -/
  | badLen
  /-- 4, `E_RANGE`: a Buffer would pass the top of the address space. -/
  | range
  /-- 5, `E_OVERLAP`: the Buffers overlap and are not identical. -/
  | overlap
  /-- 6, `E_BUS`: some byte of a Buffer does not exist. -/
  | bus
  deriving DecidableEq, Repr

/-- What the sequencer is doing (10_state.md R25). -/
inductive Phase where
  | idle | ksSeed | ksRun | ksRev | check | blkLoad | blkRound | blkStore
  deriving DecidableEq, Repr

/-- The hidden working state: the sequencer position of 10_state.md R25 and the working registers `X`, `Y` of R24.
No host transaction observes it and no command reads what an earlier command left in it (log 3). -/
structure Sequencer where
  phase : Phase
  ki : BitVec 6
  rc : BitVec 6
  bi : BitVec 60
  x : Word
  y : Word
  deriving DecidableEq, Repr

/-- A range of buffer-memory addresses that do not exist on the platform (20_memory.md R41; log 5). -/
structure Hole where
  base : Nat
  size : Nat
  deriving DecidableEq, Repr

/-- Buffer memory: the bytes that differ from what an unlisted address reads as, addresses strictly rising
(20_memory.md R31, R32; log 4). -/
abbrev Memory := List Host.Cell

/-- Everything the spec gives the machine, and the model's own four fields of the outside (INVENTORY.md, State). -/
structure State where
  /-- `KEY0` (10_state.md R12). -/
  key0 : Word
  /-- `KEY1` (10_state.md R12). -/
  key1 : Word
  /-- `BLK0` (10_state.md R13). -/
  blk0 : Word
  /-- `BLK1` (10_state.md R13). -/
  blk1 : Word
  /-- `SRC` (10_state.md R14). -/
  src : Word
  /-- `DST` (10_state.md R14). -/
  dst : Word
  /-- `LEN` (10_state.md R15). -/
  len : Word
  /-- `OPA` (10_state.md R16). -/
  opa : Word
  /-- `RES` (10_state.md R16). -/
  res : Word
  /-- `RK[0]` to `RK[53]` (10_state.md R21). -/
  rk : Schedule
  /-- `STATUS.KVALID` (10_state.md R18, R27). -/
  kvalid : Bool
  /-- `STATUS.DIR` (10_state.md R18): true for decrypt order. -/
  dir : Bool
  /-- `STATUS.ERR` (10_state.md R18). -/
  err : ErrCode
  /-- `NBLK` (10_state.md R20). -/
  nblk : Word
  /-- The hidden working state (10_state.md R24, R25). -/
  seq : Sequencer
  /-- Buffer memory (20_memory.md R31). -/
  mem : Memory
  /-- The platform's `MemPresent`, as the ranges where it is false (20_memory.md R41; log 5). -/
  absent : List Hole
  /-- The model's own: the events still to come, first first (log 6). -/
  script : List Event
  /-- The model's own: what the host has read, newest first (log 7). -/
  observed : List Observation
  /-- The model's own: a reset fell inside a command, whose transaction never completes (log 9). -/
  hung : Bool
  /-- The model's own: how many free values have been used (log 2). -/
  freeCount : Nat
  deriving DecidableEq, Repr

/-- The reasons a step stops. Both speak of the outside of the core; no command stops. -/
inductive Fault where
  /-- Raised by `step` after a reset inside a command: the host's `CMD` write never completes and the host issues
  nothing further (70_reset_and_hazards.md R112, 93_implementation_defined.md U12 "stuck"). Safe: nothing is claimed of
  what follows. -/
  | transactionNeverCompletes
  /-- Raised when the host itself places or reads a byte that does not exist on the platform (20_memory.md R41).
  Safe: the spec does not say what the platform answers. -/
  | absentByte (a : Word)
  deriving DecidableEq, Repr

/-- The reasons an instruction is refused. -/
inductive Refusal where
  /-- An instruction that has no meaning yet, by its mnemonic. Safe. No arm of `exec` raises it. -/
  | notModelled (mnemonic : String)
  deriving DecidableEq, Repr

/-- The outcome of a step of this machine. -/
abbrev Result := Host.Outcome State Fault Refusal

/-- The machine right after reset (10_state.md R28, 70_reset_and_hazards.md R111): the control state as the spec
gives it; every register whose value the spec leaves unspecified holds 0 (DESIGN CHOICE, unsafe: log 1); buffer memory
lists nothing (log 4); no byte of it is absent, the spec's default (log 5). -/
def State.reset : State where
  key0 := 0
  key1 := 0
  blk0 := 0
  blk1 := 0
  src := 0
  dst := 0
  len := 0
  opa := 0
  res := 0
  rk := Vector.replicate 54 0
  kvalid := false
  dir := false
  err := .noError
  nblk := 0
  seq := { phase := .idle, ki := 0, rc := 0, bi := 0, x := 0, y := 0 }
  mem := []
  absent := []
  script := []
  observed := []
  hung := false
  freeCount := 0

end Sys2Proof.Machine
end

