-- ==== Sys2Proof/Machine/Flags.lean ====
section
/-! DEFINITION. The fields of `STATUS` and the constant `ID` (10_state.md R18, R19, R26). -/

namespace Sys2Proof.Machine

/-- The 4-bit code of an error (60_exceptions.md R95). -/
def ErrCode.code : ErrCode → BitVec 4
  | .noError => 0
  | .illCmd => 1
  | .noKey => 2
  | .badLen => 3
  | .range => 4
  | .overlap => 5
  | .bus => 6

/-- `STATUS` as a Word: `KVALID | (DIR << 1) | (ERR << 4)` (10_state.md R18). -/
def statusWord (s : State) : Word :=
  (BitVec.ofBool s.kvalid).setWidth 64 ||| ((BitVec.ofBool s.dir).setWidth 64 <<< 1)
    ||| (s.err.code.setWidth 64 <<< 4)

/-- `ID`: `ROUNDS` in bits 7:0, `BLOCK_BYTES` in bits 15:8, `KEY_BYTES` in bits 23:16 (10_state.md R19). -/
def idWord : Word :=
  BitVec.ofNat 64 Config.rounds ||| (BitVec.ofNat 64 Config.blockBytes <<< 8)
    ||| (BitVec.ofNat 64 Config.keyBytes <<< 16)

end Sys2Proof.Machine
end

