-- ==== Sys2Proof/Machine/Ops.lean ====
section
/-! DEFINITION. The shared operations: buffer memory (20_memory.md), the checks on Buffers, raising an error and
clearing it (60_exceptions.md), fail-stop, and the effect of reset (70_reset_and_hazards.md). -/

namespace Sys2Proof.Machine

/-! ## Buffer memory -/

/-- What a byte that nothing has written reads as. DESIGN CHOICE, unsafe: log 4. -/
def unlistedByte : Byte := 0

/-- The byte at address `a` (20_memory.md R32). -/
def readByte : Memory → Nat → Byte
  | [], _ => unlistedByte
  | (b, v) :: rest, a => if a = b then v else readByte rest a

/-- Drops the entry of an address from a rising list: the byte goes back to what an unlisted address reads as. -/
def dropCell : Memory → Nat → Memory
  | [], _ => []
  | (b, v) :: rest, a =>
    if a = b then rest
    else if a < b then (b, v) :: rest
    else (b, v) :: dropCell rest a

/-- Puts an entry into a rising list in its place, over the one that was there. -/
def putCell : Memory → Nat → Byte → Memory
  | [], a, w => [(a, w)]
  | (b, v) :: rest, a, w =>
    if a = b then (a, w) :: rest
    else if a < b then (a, w) :: (b, v) :: rest
    else (b, v) :: putCell rest a w

/-- Stores one byte, keeping the canonical form: the value an unlisted address reads as leaves no entry. -/
def writeByte (m : Memory) (a : Nat) (w : Byte) : Memory :=
  if w = unlistedByte then dropCell m a else putCell m a w

/-- The canonical form above a bound: addresses at least `low`, strictly rising, inside the address space, and no
entry equal to what an unlisted address reads as. -/
def memoryWfFrom : Nat → Memory → Bool
  | _, [] => true
  | low, (a, w) :: rest =>
    decide (low ≤ a) && decide (a < Config.addressEnd) && decide (w ≠ unlistedByte) && memoryWfFrom (a + 1) rest

/-- The canonical form of a memory. -/
def Memory.wf (m : Memory) : Bool := memoryWfFrom 0 m

/-- Byte `k` of a Word is `w[8k+7:8k]` (00_scope.md R7). -/
def byteOf (w : Word) (k : Nat) : Byte := w.extractLsb' (8 * k) 8

/-- `MemRead(a, 8)`: the Word whose byte `k` stands at `a + k`, little-endian (20_memory.md R33, R35). -/
def readWord (m : Memory) (a : Nat) : Word :=
  (List.range 8).foldl (fun w k => w ||| ((readByte m (a + k)).setWidth 64 <<< (8 * k))) 0

/-- `MemWrite(a, 8, w)`: byte `k` of the Word goes to `a + k`, little-endian (20_memory.md R33, R35). -/
def writeWord (m : Memory) (a : Nat) (w : Word) : Memory :=
  (List.range 8).foldl (fun m k => writeByte m (a + k) (byteOf w k)) m

/-! ## Which bytes exist, and the checks on Buffers -/

/-- Whether an address lies in a hole. -/
def Hole.covers (h : Hole) (a : Nat) : Bool := decide (h.base ≤ a ∧ a < h.base + h.size)

/-- Whether a hole holds some address of `[base, base + len)`. -/
def Hole.meets (h : Hole) (base len : Nat) : Bool :=
  decide (max h.base base < min (h.base + h.size) (base + len))

/-- `MemPresent(a)` (00_scope.md R5, 20_memory.md R41). -/
def memPresent (holes : List Hole) (a : Nat) : Bool := !holes.any (fun h => h.covers a)

/-- Whether every byte of `[base, base + len)` exists (20_memory.md R41). -/
def regionPresent (holes : List Hole) (base len : Nat) : Bool := !holes.any (fun h => h.meets base len)

/-- The range check of one Buffer: `base + len > 2^64`, in unbounded naturals (20_memory.md R39). -/
def passesTop (base len : Nat) : Bool := decide (Config.addressEnd < base + len)

/-- The overlap check: the regions overlap and are not identical (20_memory.md R40, 45_ecb_controller.md R91). -/
def partlyOverlap (src dst len : Nat) : Bool := decide (dst ≠ src ∧ dst < src + len ∧ src < dst + len)

/-! ## Errors: entry, return, fail-stop -/

/-- The sequencer waits for the next command (10_state.md R25). -/
def Sequencer.toIdle (q : Sequencer) : Sequencer := { q with phase := .idle }

/-- `raise Error(code)`, the only form of exception entry: the code is recorded when none is, the command is
abandoned, and nothing else changes (60_exceptions.md R98). -/
def raise (c : ErrCode) (s : State) : State :=
  { s with err := if s.err = .noError then c else s.err, seq := s.seq.toIdle }

/-- The return from an error: `STATUS.ERR <- 0`, and nothing is restored (60_exceptions.md R100). -/
def clearError (s : State) : State := { s with err := .noError }

/-- A command other than `CLRERR`: while an error is recorded it does nothing (fail-stop, 60_exceptions.md R99),
otherwise it has its effect; either way it completes. -/
def command (s : State) (effect : State → State) : Result :=
  .next (if s.err = .noError then effect s else s)

/-- A command word that is none of the thirteen (30_encoding.md R54). -/
def illegalCommand (s : State) : Result := command s (raise .illCmd)

/-! ## Results of commands -/

/-- A unit command writes its result to `RES` and nothing else (10_state.md R16). -/
def setRes (v : Word) (s : State) : State := { s with res := v }

/-- The end of a command that derives or reverses the schedule: all 54 round keys and the two flags; `ki` is where
the command's last key loop stopped (10_state.md R21, 45_ecb_controller.md R93). -/
def setSchedule (rk : Schedule) (dir : Bool) (ki : BitVec 6) (s : State) : State :=
  { s with rk := rk, dir := dir, kvalid := true, seq := { s.seq with ki := ki } }

/-- The end of a block in the working registers: `X`, `Y` and the round counter (45_ecb_controller.md R93). -/
def Sequencer.afterBlock (q : Sequencer) (x y : Word) : Sequencer := { q with x := x, y := y, rc := 54 }

/-- The end of `BLK`: the transformed block (44_round_function.md R87). -/
def setBlock (o : Word × Word) (s : State) : State :=
  { s with blk0 := o.1, blk1 := o.2, seq := s.seq.afterBlock o.1 o.2 }

/-- `NBLK <- n` (10_state.md R20). -/
def setNblk (n : Word) (s : State) : State := { s with nblk := n }

/-! ## Reset -/

/-- A reset event: the control state takes the values of 10_state.md R28; every register the spec leaves
unspecified takes a free value, so that nothing can be said of it, neither that it survives nor that it is erased
(70_reset_and_hazards.md R111; log 2). Buffer memory is unchanged. -/
def applyReset (s : State) : State :=
  { s with
    key0 := Config.freeWord s.freeCount
    key1 := Config.freeWord (s.freeCount + 1)
    blk0 := Config.freeWord (s.freeCount + 2)
    blk1 := Config.freeWord (s.freeCount + 3)
    src := Config.freeWord (s.freeCount + 4)
    dst := Config.freeWord (s.freeCount + 5)
    len := Config.freeWord (s.freeCount + 6)
    opa := Config.freeWord (s.freeCount + 7)
    res := Config.freeWord (s.freeCount + 8)
    rk := Vector.ofFn (fun i => Config.freeWord (s.freeCount + 9 + i.val))
    kvalid := false
    dir := false
    err := .noError
    nblk := 0
    seq :=
      { phase := .idle
        ki := (Config.freeWord (s.freeCount + 63)).setWidth 6
        rc := (Config.freeWord (s.freeCount + 64)).setWidth 6
        bi := (Config.freeWord (s.freeCount + 65)).setWidth 60
        x := Config.freeWord (s.freeCount + 66)
        y := Config.freeWord (s.freeCount + 67) }
    freeCount := s.freeCount + 68 }

end Sys2Proof.Machine
end

