-- ==== Sys2Proof/Machine/Operands.lean ====
section
/-! DEFINITION. The register file as the host sees it: numbers, reads and writes (10_state.md R11, R22, R23). A
command's own operands are fixed registers, read and written in its rule; the one immediate is the field of `ROTL`. -/

namespace Sys2Proof.Machine

/-- The number of a register (10_state.md R11). -/
def regNumber : Reg → BitVec 8
  | .key0 => 0x00
  | .key1 => 0x01
  | .blk0 => 0x02
  | .blk1 => 0x03
  | .src => 0x04
  | .dst => 0x05
  | .len => 0x06
  | .opa => 0x07
  | .res => 0x08
  | .cmd => 0x09
  | .status => 0x0A
  | .id => 0x0B
  | .nblk => 0x0C
  | .rk i => BitVec.ofNat 8 (0x40 + i.val)

/-- The register a number selects; none for the reserved numbers 0x0D to 0x3F and 0x76 to 0xFF (10_state.md R11,
R22). -/
def regOf (n : BitVec 8) : Option Reg :=
  match n.toNat with
  | 0x00 => some .key0
  | 0x01 => some .key1
  | 0x02 => some .blk0
  | 0x03 => some .blk1
  | 0x04 => some .src
  | 0x05 => some .dst
  | 0x06 => some .len
  | 0x07 => some .opa
  | 0x08 => some .res
  | 0x09 => some .cmd
  | 0x0A => some .status
  | 0x0B => some .id
  | 0x0C => some .nblk
  | k => if h : 0x40 ≤ k ∧ k < 0x76 then some (.rk ⟨k - 0x40, by omega⟩) else none

/-- What a read of a register returns: the stored value, the composed `STATUS`, the constant `ID`, 0 for `CMD`
(10_state.md R23). -/
def regValue (s : State) : Reg → Word
  | .key0 => s.key0
  | .key1 => s.key1
  | .blk0 => s.blk0
  | .blk1 => s.blk1
  | .src => s.src
  | .dst => s.dst
  | .len => s.len
  | .opa => s.opa
  | .res => s.res
  | .cmd => 0
  | .status => statusWord s
  | .id => idWord
  | .nblk => s.nblk
  | .rk i => s.rk[i]

/-- `RegRead(n)`: reserved numbers read 0 (10_state.md R22, R23). -/
def readRegister (n : BitVec 8) (s : State) : Word :=
  match regOf n with
  | some r => regValue s r
  | none => 0

/-- A host write to a register other than `CMD`: the read/write registers take the value, a write to `KEY0` or
`KEY1` clears `KVALID` as well, a write to a read-only register is ignored (10_state.md R23, R27). -/
def setRegister (r : Reg) (v : Word) (s : State) : State :=
  match r with
  | .key0 => { s with key0 := v, kvalid := false }
  | .key1 => { s with key1 := v, kvalid := false }
  | .blk0 => { s with blk0 := v }
  | .blk1 => { s with blk1 := v }
  | .src => { s with src := v }
  | .dst => { s with dst := v }
  | .len => { s with len := v }
  | .opa => { s with opa := v }
  | .res | .cmd | .status | .id | .nblk | .rk _ => s

end Sys2Proof.Machine
end

