-- ==== Sys2Proof/Machine/Control.lean ====
section
/-! DEFINITION. The two housekeeping commands (45_ecb_controller.md R90, R92). -/

namespace Sys2Proof.Machine

/-- `NOP`: no state changes, with `STATUS.ERR` zero or not (45_ecb_controller.md R90). -/
def execNop (s : State) : Result := command s (fun s => s)

/-- `CLRERR`: `STATUS.ERR <- 0`; the one command that has an effect while an error is recorded
(45_ecb_controller.md R92, 60_exceptions.md R100). -/
def execClrerr (s : State) : Result := .next (clearError s)

end Sys2Proof.Machine
end

