-- ==== Sys2Proof/Machine/Nonlinear.lean ====
section
/-! DEFINITION. The nonlinear feedback layer `G0`, `G1` (42_nonlinear.md). -/

namespace Sys2Proof.Machine

/-- Lane `k` of a Word: `w[4k+3:4k]` (00_scope.md R7, 42_nonlinear.md R66). -/
def lane (w : Word) (k : Nat) : BitVec 4 := w.extractLsb' (4 * k) 4

/-- `G0(x)`, two statements, the second reading the first's result (42_nonlinear.md R67). -/
def g0 (x : Word) : Word :=
  let x1 := x ^^^ ((x >>> 3) &&& (x >>> 2) &&& 0x1111111111111111)
  x1 ^^^ ((x1 <<< 3) &&& (x1 <<< 2) &&& 0x8888888888888888)

/-- `G1(x)`, two statements, the second reading the first's result (42_nonlinear.md R68). -/
def g1 (x : Word) : Word :=
  let x1 := x ^^^ ((x >>> 1) &&& (x <<< 1) &&& 0x4444444444444444)
  x1 ^^^ ((x1 <<< 1) &&& (x1 >>> 1) &&& 0x2222222222222222)

/-- `G0`: `RES <- G0(OPA)` (42_nonlinear.md R70). -/
def execG0 (s : State) : Result := command s (fun s => setRes (g0 s.opa) s)

/-- `G1`: `RES <- G1(OPA)` (42_nonlinear.md R71). -/
def execG1 (s : State) : Result := command s (fun s => setRes (g1 s.opa) s)

end Sys2Proof.Machine
end

