-- ==== Sys2Proof/Machine/Rotate.lean ====
section
/-! DEFINITION. The 64-bit bit-rotation unit (40_rotate.md). -/

namespace Sys2Proof.Machine

/-- `ROTL64(x, s)` for `s` in 0 to 63; the case 0 stands apart, as in 40_rotate.md R60. -/
def rotl64 (x : Word) (s : BitVec 6) : Word :=
  if s = 0 then x else (x <<< s.toNat) ||| (x >>> (64 - s.toNat))

/-- `ROTL`: `RES <- ROTL64(OPA, IMM6)` (40_rotate.md R61). -/
def execRotl (amount : BitVec 6) (s : State) : Result :=
  command s (fun s => setRes (rotl64 s.opa amount) s)

end Sys2Proof.Machine
end

