-- ==== Sys2Proof/Machine/Permutation.lean ====
section
/-! DEFINITION. The 64-bit permutation network `P` (41_permutation.md). -/

namespace Sys2Proof.Machine

/-- The mask of bytes 0, 2, 4, 6 (41_permutation.md R63). -/
def evenBytes : Word := 0x00FF00FF00FF00FF

/-- The mask of bytes 1, 3, 5, 7 (41_permutation.md R63). -/
def oddBytes : Word := 0xFF00FF00FF00FF00

/-- `P(x)` (41_permutation.md R63). -/
def permute (x : Word) : Word := rotl64 (x &&& evenBytes) 56 ||| rotl64 (x &&& oddBytes) 24

/-- `PERM`: `RES <- P(OPA)` (41_permutation.md R65). -/
def execPerm (s : State) : Result := command s (fun s => setRes (permute s.opa) s)

end Sys2Proof.Machine
end

