-- ==== Sys2Proof/Machine/RoundFunction.lean ====
section
/-! DEFINITION. The round function and the block transform (44_round_function.md). -/

namespace Sys2Proof.Machine

/-- `F(x) = P(G0(x) ^ G1(ROTL64(x, 4)))` (44_round_function.md R82). -/
def roundF (x : Word) : Word := permute (g0 x ^^^ g1 (rotl64 x 4))

/-- `ROUND(x, y, k) = (y ^ F(x) ^ k, x)` on the pair (x, y) (44_round_function.md R83). -/
def cipherRound (xy : Word × Word) (k : Word) : Word × Word := (xy.2 ^^^ roundF xy.1 ^^^ k, xy.1)

/-- `TB(w0, w1, s)` for a schedule of any length: `X <- w1`, `Y <- w0`, one round per key in order, then
`(o0, o1) = (X, Y)` (44_round_function.md R84, R85; the write-back order is 90_conflicts.md C1's). -/
def transformWith (keys : List Word) (block : Word × Word) : Word × Word :=
  keys.foldl cipherRound (block.2, block.1)

/-- `TB` with the 54 round keys of the hardware (44_round_function.md R84). -/
def transformBlock (rk : Schedule) (block : Word × Word) : Word × Word := transformWith rk.toList block

/-- `FRND`: `RES <- F(OPA)` (44_round_function.md R86). -/
def execFrnd (s : State) : Result := command s (fun s => setRes (roundF s.opa) s)

/-- `BLK`: transform the block in `BLK0`, `BLK1`; `E_NOKEY` without a schedule (44_round_function.md R87). -/
def execBlk (s : State) : Result :=
  command s (fun s =>
    if s.kvalid then setBlock (transformBlock s.rk (s.blk0, s.blk1)) s else raise .noKey s)

end Sys2Proof.Machine
end

