-- ==== Sys2Proof/Machine/Ecb.lean ====
section
/-! DEFINITION. The ECB block-mode controller (45_ecb_controller.md R88 to R91). -/

namespace Sys2Proof.Machine

/-- `MemRead` of a block: word0 at its address, word1 at 8 above (20_memory.md R34). -/
def readBlock (m : Memory) (a : Nat) : Word × Word := (readWord m a, readWord m (a + 8))

/-- `MemWrite` of a block: word0 first, then word1 (20_memory.md R34, R43). -/
def writeBlock (m : Memory) (a : Nat) (o : Word × Word) : Memory := writeWord (writeWord m a o.1) (a + 8) o.2

/-- The error an `ECB` raises, in the order of its checks; `noError` when all five pass
(45_ecb_controller.md R91, 60_exceptions.md R97). -/
def ecbError (s : State) : ErrCode :=
  let src := s.src.toNat
  let dst := s.dst.toNat
  let len := s.len.toNat
  if !s.kvalid then .noKey
  else if s.len.extractLsb' 0 4 ≠ 0 then .badLen
  else if len = 0 then .noError
  else if passesTop src len || passesTop dst len then .range
  else if partlyOverlap src dst len then .overlap
  else if !(regionPresent s.absent src len && regionPresent s.absent dst len) then .bus
  else .noError

/-- The number of blocks: `LEN[63:4]` (45_ecb_controller.md R91). -/
def blockCount (s : State) : BitVec 60 := s.len.extractLsb' 4 60

/-- The address of an input block: `SRC + 16*i` (45_ecb_controller.md R91). -/
def blockSource (s : State) (i : Nat) : Nat := s.src.toNat + 16 * i

/-- The address of an output block: `DST + 16*i` (45_ecb_controller.md R91). -/
def blockTarget (s : State) (i : Nat) : Nat := s.dst.toNat + 16 * i

/-- One iteration of the block loop: read block `i`, transform it, write it; the working registers and the counters
follow (45_ecb_controller.md R91, R93). -/
def ecbBlock (s : State) (i : Nat) : State :=
  let o := transformBlock s.rk (readBlock s.mem (blockSource s i))
  { s with
    mem := writeBlock s.mem (blockTarget s i) o
    seq := { s.seq.afterBlock o.1 o.2 with bi := BitVec.ofNat 60 (i + 1) } }

/-- The block loop enters with `BI` = 0 (10_state.md R25). -/
def enterBlocks (s : State) : State := { s with seq := { s.seq with bi := 0 } }

/-- The processing part of `ECB`: blocks in ascending order, then `NBLK <- n` (45_ecb_controller.md R91). -/
def ecbProcess (s : State) : State :=
  setNblk ((blockCount s).setWidth 64)
    ((List.range (blockCount s).toNat).foldl ecbBlock (enterBlocks s))

/-- The effect of `ECB`: `NBLK <- 0`, the checks, then the processing (45_ecb_controller.md R91). -/
def ecbEffect (s : State) : State :=
  match ecbError s with
  | .noError => ecbProcess (setNblk 0 s)
  | c => raise c (setNblk 0 s)

/-- `ECB`: transform the Buffer at `SRC` of `LEN` bytes into the Buffer at `DST` (45_ecb_controller.md R91). -/
def execEcb (s : State) : Result := command s ecbEffect

/-! ## The function on byte sequences -/

/-- The Word read little-endian from the first 8 bytes of a sequence (20_memory.md R33). -/
def wordOfBytes (bytes : List Byte) : Word :=
  (List.range 8).foldl (fun w k => w ||| ((bytes.getD k 0).setWidth 64 <<< (8 * k))) 0

/-- The little-endian bytes of a Word (20_memory.md R33). -/
def bytesOfWord (w : Word) : List Byte := (List.range 8).map (byteOf w)

/-- The transform of one 16-byte block of a byte sequence (45_ecb_controller.md R88). -/
def transformBytes (rk : Schedule) (block : List Byte) : List Byte :=
  let o := transformBlock rk (wordOfBytes block, wordOfBytes (block.drop 8))
  bytesOfWord o.1 ++ bytesOfWord o.2

/-- `n` blocks of a byte sequence, each transformed on its own (45_ecb_controller.md R88). -/
def transformBlocks (rk : Schedule) : Nat → List Byte → List Byte
  | 0, _ => []
  | n + 1, bytes => transformBytes rk (bytes.take 16) ++ transformBlocks rk n (bytes.drop 16)

/-- `ECBF(bytes, s)`; no value when the length is not a multiple of 16 (45_ecb_controller.md R88,
93_implementation_defined.md U4). -/
def ecbf (rk : Schedule) (bytes : List Byte) : Option (List Byte) :=
  if bytes.length % 16 = 0 then some (transformBlocks rk (bytes.length / 16) bytes) else none

/-- The bytes of a Buffer of `len` bytes at `a` (20_memory.md R32). -/
def bufferBytes (m : Memory) (a len : Nat) : List Byte := (List.range len).map (fun k => readByte m (a + k))

end Sys2Proof.Machine
end

