-- ==== Sys2Proof/Machine/KeySchedule.lean ====
section
/-! DEFINITION. The key-schedule expander: mixing, expansion, reversal (43_key_schedule.md). -/

namespace Sys2Proof.Machine

/-- `rotl4(t, 1)`: `((t << 1) | (t >> 3)) & 0xF` on 4 bits (00_scope.md R8). -/
def rotl4 (t : BitVec 4) : BitVec 4 := (t <<< 1) ||| (t >>> 3)

/-- `A16(w)`: rotate by 60, then exclusive-or the rotated nibble of bits 59:56 into bits 63:60
(43_key_schedule.md R72; the reading of the source is the spec's own, 92_eei_decisions.md D11; log 12). -/
def a16 (w : Word) : Word :=
  let v := rotl64 w 60
  v ^^^ ((rotl4 (v.extractLsb' 56 4)).setWidth 64 <<< 60)

/-- `A16X3(w)`: three iterations (43_key_schedule.md R73). -/
def a16x3 (w : Word) : Word := a16 (a16 (a16 w))

/-- One iteration of the recurrence: `rk[r+2]` from `rk[r]` and `rk[r+1]` (43_key_schedule.md R74). -/
def nextRoundKey (r : Nat) (a b : Word) : Word := a16x3 b ^^^ a ^^^ BitVec.ofNat 64 (r + 1)

/-- `n` round keys from position `r` on, whose first two are `a` and `b` (43_key_schedule.md R74). -/
def expandFrom : Nat → Nat → Word → Word → List Word
  | 0, _, _, _ => []
  | n + 1, r, a, b => a :: expandFrom n (r + 1) b (nextRoundKey r a b)

theorem expandFrom_length (n r : Nat) (a b : Word) : (expandFrom n r a b).length = n := by
  induction n generalizing r a b with
  | zero => rfl
  | succ n ih => simp [expandFrom, ih]

/-- `KS(k0, k1)`: the encrypt-order schedule (43_key_schedule.md R74). -/
def keySchedule (k0 k1 : Word) : Schedule :=
  ⟨(expandFrom 54 0 k0 k1).toArray, by simp [expandFrom_length]⟩

/-- `REV(s)`: `REV(s)[i] = s[53 - i]` (43_key_schedule.md R75). -/
def reverseSchedule (rk : Schedule) : Schedule := Vector.ofFn (fun i => rk[53 - i.val])

/-- One swap of the reversal in place: `RK[i]` with `RK[53 - i]` (43_key_schedule.md R75, R80). -/
def swapRoundKeys (rk : Schedule) (i : Nat) : Schedule := rk.swapIfInBounds i (53 - i)

/-- The reversal in place: 27 swaps, `i` = 0 to 26 (43_key_schedule.md R75, R80). -/
def reverseInPlace (rk : Schedule) : Schedule := (List.range 27).foldl swapRoundKeys rk

/-- `A16X3`: `RES <- A16X3(OPA)` (43_key_schedule.md R76). -/
def execA16x3 (s : State) : Result := command s (fun s => setRes (a16x3 s.opa) s)

/-- `KEXP.E`: the schedule in encrypt order; `KI` stops at 52 (43_key_schedule.md R77, 45_ecb_controller.md R93). -/
def execKexpE (s : State) : Result :=
  command s (fun s => setSchedule (keySchedule s.key0 s.key1) false 52 s)

/-- `KEXP.D`: the schedule in decrypt order; `KI` stops at 27 (43_key_schedule.md R78, 45_ecb_controller.md R93). -/
def execKexpD (s : State) : Result :=
  command s (fun s => setSchedule (reverseSchedule (keySchedule s.key0 s.key1)) true 27 s)

/-- `KREV`: reverse the schedule in place and invert `DIR`; `E_NOKEY` without a schedule (43_key_schedule.md R80). -/
def execKrev (s : State) : Result :=
  command s (fun s =>
    if s.kvalid then setSchedule (reverseInPlace s.rk) (!s.dir) 27 s else raise .noKey s)

end Sys2Proof.Machine
end

