-- ==== Sys2Proof/Machine/Dispatch.lean ====
section
/-! DEFINITION. One arm per command (30_encoding.md R52), each a call of that command's own meaning. -/

namespace Sys2Proof.Machine

def exec (i : Instr) (s : State) : Host.Outcome State Fault Refusal :=
  match i with
  | .nop => Sys2Proof.Machine.execNop s
  | .kexpE => Sys2Proof.Machine.execKexpE s
  | .kexpD => Sys2Proof.Machine.execKexpD s
  | .krev => Sys2Proof.Machine.execKrev s
  | .blk => Sys2Proof.Machine.execBlk s
  | .ecb => Sys2Proof.Machine.execEcb s
  | .clrerr => Sys2Proof.Machine.execClrerr s
  | .rotl amount => Sys2Proof.Machine.execRotl amount s
  | .perm => Sys2Proof.Machine.execPerm s
  | .g0 => Sys2Proof.Machine.execG0 s
  | .g1 => Sys2Proof.Machine.execG1 s
  | .a16x3 => Sys2Proof.Machine.execA16x3 s
  | .frnd => Sys2Proof.Machine.execFrnd s

end Sys2Proof.Machine
end

