-- ==== Sys2Proof/Machine/Sequencer.lean ====
section
/-! DEFINITION. The sequencer, loop by loop (45_ecb_controller.md R93, 10_state.md R25). The command in progress is
held by the host's `CMD` write, which has not completed, so it is an argument here and no part of the state. Commands
are atomic to the host (00_scope.md R6): `exec` is their meaning, and this file serves a reset that falls inside a
command (70_reset_and_hazards.md R112) and the statement that the two agree (log 16). -/

namespace Sys2Proof.Machine

/-- The sequencer moves to a phase. -/
def enterPhase (p : Phase) (s : State) : State := { s with seq := { s.seq with phase := p } }

/-- A key-schedule loop is entered: its counter starts at 0 (10_state.md R25). -/
def enterKeyLoop (p : Phase) (s : State) : State := { s with seq := { s.seq with phase := p, ki := 0 } }

/-- The state an outcome leaves; a stop leaves what was. -/
def stateAfter (s : State) : Result → State
  | .next t => t
  | .fault _ => s
  | .refused _ => s

/-- The `CMD` write arrives: under fail-stop nothing starts; a command with loops enters its first phase; the others
are a single step with no loop (45_ecb_controller.md R93). -/
def startCommand (i : Instr) (s : State) : State :=
  match i with
  | .kexpE | .kexpD => if s.err = .noError then enterPhase .ksSeed s else s
  | .krev | .blk | .ecb => if s.err = .noError then enterPhase .check s else s
  | .nop | .clrerr | .rotl _ | .perm | .g0 | .g1 | .a16x3 | .frnd => stateAfter s (exec i s)

/-- `KS_SEED`: `RK[0]` and `RK[1]` take the key, then the expansion loop is entered. -/
def tickSeed (s : State) : State :=
  enterKeyLoop .ksRun { s with rk := (s.rk.set 0 s.key0).set 1 s.key1 }

/-- The end of a command on the schedule: the flags, then `IDLE`. -/
def finishSchedule (dir : Bool) (s : State) : State := enterPhase .idle { s with dir := dir, kvalid := true }

/-- `KS_RUN`: one round key per iteration, `KI` = 0 to 51; exits when `KI` = 52. -/
def tickRun (i : Instr) (s : State) : State :=
  if h : s.seq.ki.toNat < 52 then
    { s with
      rk := s.rk.set (s.seq.ki.toNat + 2)
        (nextRoundKey s.seq.ki.toNat (s.rk[s.seq.ki.toNat]) (s.rk[s.seq.ki.toNat + 1]))
      seq := { s.seq with ki := s.seq.ki + 1 } }
  else if i = .kexpD then enterKeyLoop .ksRev s
  else finishSchedule false s

/-- `KS_REV`: one swap per iteration, `KI` = 0 to 26; exits when `KI` = 27. -/
def tickRev (i : Instr) (s : State) : State :=
  if s.seq.ki.toNat < 27 then
    { s with
      rk := swapRoundKeys s.rk s.seq.ki.toNat
      seq := { s.seq with ki := s.seq.ki + 1 } }
  else if i = .kexpD then finishSchedule true s
  else finishSchedule (!s.dir) s

/-- The head of `ECB`'s block loop: the next block, or the end when `BI` = `LEN/16`. -/
def headOfBlocks (s : State) : State :=
  if s.seq.bi = blockCount s then enterPhase .idle (setNblk ((blockCount s).setWidth 64) s)
  else enterPhase .blkLoad s

/-- `CHECK`: the tests of `KREV`, `BLK` and `ECB` (43_key_schedule.md R80, 44_round_function.md R87,
45_ecb_controller.md R91). -/
def tickCheck (i : Instr) (s : State) : State :=
  match i with
  | .krev => if s.kvalid then enterKeyLoop .ksRev s else raise .noKey s
  | .blk => if s.kvalid then enterPhase .blkLoad s else raise .noKey s
  | .ecb =>
    match ecbError s with
    | .noError => headOfBlocks (enterBlocks (setNblk 0 s))
    | c => raise c (setNblk 0 s)
  | .nop | .kexpE | .kexpD | .clrerr | .rotl _ | .perm | .g0 | .g1 | .a16x3 | .frnd => enterPhase .idle s

/-- The block `BLK_LOAD` loads: from `BLK0`, `BLK1` for `BLK`, from memory for `ECB`. -/
def loadedBlock (i : Instr) (s : State) : Word × Word :=
  if i = .ecb then readBlock s.mem (blockSource s s.seq.bi.toNat) else (s.blk0, s.blk1)

/-- `BLK_LOAD`: `X` takes word1, `Y` word0; the round loop is entered with `RC` = 0. -/
def tickLoad (i : Instr) (s : State) : State :=
  { s with
    seq :=
      { s.seq with
        phase := .blkRound
        rc := 0
        x := (loadedBlock i s).2
        y := (loadedBlock i s).1 } }

/-- `BLK_ROUND`: one `ROUND` per iteration, `RC` = 0 to 53; exits when `RC` = 54. -/
def tickRound (s : State) : State :=
  if h : s.seq.rc.toNat < 54 then
    let xy := cipherRound (s.seq.x, s.seq.y) s.rk[s.seq.rc.toNat]
    { s with seq := { s.seq with rc := s.seq.rc + 1, x := xy.1, y := xy.2 } }
  else enterPhase .blkStore s

/-- `BLK_STORE`: word0 is `X` and word1 is `Y`, to `BLK0`, `BLK1` for `BLK`, to memory for `ECB`, which then goes to the
head of its loop. -/
def tickStore (i : Instr) (s : State) : State :=
  if i = .ecb then
    headOfBlocks
      { s with
        mem := writeBlock s.mem (blockTarget s s.seq.bi.toNat) (s.seq.x, s.seq.y)
        seq := { s.seq with bi := s.seq.bi + 1 } }
  else enterPhase .idle { s with blk0 := s.seq.x, blk1 := s.seq.y }

/-- One iteration of the sequencer while command `i` is in progress (45_ecb_controller.md R93). -/
def tick (i : Instr) (s : State) : State :=
  match s.seq.phase with
  | .idle => s
  | .ksSeed => tickSeed s
  | .ksRun => tickRun i s
  | .ksRev => tickRev i s
  | .check => tickCheck i s
  | .blkLoad => tickLoad i s
  | .blkRound => tickRound s
  | .blkStore => tickStore i s

/-- `n` iterations of the sequencer. -/
def ticks (i : Instr) : Nat → State → State
  | 0, s => s
  | n + 1, s => ticks i n (tick i s)

/-- How many iterations a command takes from its start to `IDLE`, when none is cut short: the loops of
45_ecb_controller.md R93, each with its exit. -/
def ticksNeeded (i : Instr) (s : State) : Nat :=
  match i with
  | .kexpE => 54
  | .kexpD => 82
  | .krev => 29
  | .blk => 58
  | .ecb => 1 + 57 * (blockCount s).toNat
  | .nop | .clrerr | .rotl _ | .perm | .g0 | .g1 | .a16x3 | .frnd => 0

/-- A store under way that has written word0 only (70_reset_and_hazards.md R112). -/
def storeWord0 (s : State) : State :=
  { s with mem := writeWord s.mem (blockTarget s s.seq.bi.toNat) s.seq.x }

/-- What a command has done when it is abandoned after `n` iterations (70_reset_and_hazards.md R112). -/
def abandonAfter (i : Instr) (n : Nat) (half : Bool) (s : State) : State :=
  let t := ticks i n (startCommand i s)
  if half ∧ i = .ecb ∧ t.seq.phase = .blkStore then storeWord0 t else t

end Sys2Proof.Machine
end

