-- ==== Sys2Proof/Machine/Transactions.lean ====
section
/-! DEFINITION. What each event does: host transactions (30_encoding.md R49, R59), the host's own memory accesses
(20_memory.md R31), reset (70_reset_and_hazards.md R110 to R112). -/

namespace Sys2Proof.Machine

/-- A write of `v` to `CMD` (30_encoding.md R59). Fail-stop stands in every meaning and in the illegal word's, so that
decoding first is not observable: `Obligations.CommandWriteFollowsItsSteps` (log 14). -/
def runCommand (v : Word) (s : State) : Result :=
  match decode v with
  | .ok i => exec i s
  | .error _ => illegalCommand s

/-- `RegWrite(n, v)`: `CMD` executes, reserved numbers are ignored, the others follow the access column
(10_state.md R22, R23). -/
def writeRegister (n : BitVec 8) (v : Word) (s : State) : Result :=
  match regOf n with
  | some .cmd => runCommand v s
  | some r => .next (setRegister r v s)
  | none => .next s

/-- The host learns something (00_scope.md R6). -/
def observe (o : Observation) (s : State) : State := { s with observed := o :: s.observed }

/-- The host places a byte between commands (20_memory.md R31, R43; log 8). -/
def placeByte (a : Word) (b : Byte) (s : State) : Result :=
  if memPresent s.absent a.toNat then .next { s with mem := writeByte s.mem a.toNat b } else .fault (.absentByte a)

/-- The host reads a byte between commands (20_memory.md R31, R43; log 8). -/
def inspectByte (a : Word) (s : State) : Result :=
  if memPresent s.absent a.toNat then .next (observe (.byte a (readByte s.mem a.toNat)) s) else .fault (.absentByte a)

/-- A reset inside the command the host wrote: the command is abandoned, the core's state is as after any reset,
buffer memory keeps what was stored, and the host's transaction never completes (70_reset_and_hazards.md R112). -/
def resetInside (v : Word) (n : Nat) (half : Bool) (s : State) : State :=
  match decode v with
  | .ok i => { applyReset (abandonAfter i n half s) with hung := true }
  | .error _ => { applyReset s with hung := true }

/-- One event (00_scope.md R6). -/
def perform (e : Event) (s : State) : Result :=
  match e with
  | .regWrite n v => writeRegister n v s
  | .regRead n => .next (observe (.register n (readRegister n s)) s)
  | .memPlace a b => placeByte a b s
  | .memInspect a => inspectByte a s
  | .reset => .next (applyReset s)
  | .resetInside v n half => .next (resetInside v n half s)

end Sys2Proof.Machine
end

