-- ==== Sys2Proof/Machine/Step.lean ====
section
/-! DEFINITION. One step of the machine: the next event from outside (00_scope.md R6). -/

namespace Sys2Proof.Machine

/-- One event is performed; with none to come the core stays idle and all state survives unchanged
(60_exceptions.md R109). After a reset inside a command the host's transaction never completes
(70_reset_and_hazards.md R112). -/
def step (s : State) : Host.Outcome State Fault Refusal :=
  if s.hung then .fault .transactionNeverCompletes
  else
    match s.script with
    | [] => .next s
    | e :: rest => perform e { s with script := rest }

/-- The host is about to write the word `w` (its low `nbits` bits) to `CMD`: the next step runs it. This stands for
the host issuing the command (log 6). -/
def State.withFetchWord (s : State) (nbits w : Nat) : State :=
  { s with script := .regWrite 0x09 (BitVec.ofNat 64 (w % 2 ^ nbits)) :: s.script, hung := false }

end Sys2Proof.Machine
end

