-- ==== Sys2Proof/WellFormed.lean ====
section
/-! DEFINITION. Well-formedness of a host-script line (30_encoding.md R57, R58). An `Instr` needs no check of
its own: its one operand has the type of the 6-bit field, so that a rotation by 64 cannot be written at all
(30_encoding.md R51, 93_implementation_defined.md U2). -/

namespace Sys2Proof

/-- A literal that fits a 64-bit register (30_encoding.md R57). -/
def isWordLiteral (v : Nat) : Bool := decide (v < 2 ^ 64)

/-- A rotation amount: "`s` in 0 to 63" (30_encoding.md R57). -/
def isRotation (s : Nat) : Bool := decide (s < 64)

/-- A register number is 8 bits wide (10_state.md R11). -/
def RegRef.wellFormed : RegRef → Bool
  | .name _ => true
  | .number n => decide (n < 256)

/-- A byte range inside the address space (20_memory.md R31). -/
def isAddressRange (addr n : Nat) : Bool := decide (addr + n ≤ 2 ^ 64)

/-- The commands that a line `cmd <mnemonic>` may name without an operand (30_encoding.md R57). R57 leaves open whether
`cmd ROTL` with no amount is a line; that it is not, and `ROTL` is written `cmd ROTL <s>` only, is the model's reading:
DESIGN CHOICE, safe (log 17). -/
def Instr.takesNoOperand : Instr → Bool
  | .rotl _ => false
  | .nop | .kexpE | .kexpD | .krev | .blk | .ecb | .clrerr | .perm | .g0 | .g1 | .a16x3 | .frnd => true

/-- The units of the pseudo-instruction `unit <U> a` (30_encoding.md R58). -/
def Instr.isPlainUnit : Instr → Bool
  | .perm | .g0 | .g1 | .a16x3 | .frnd => true
  | .nop | .kexpE | .kexpD | .krev | .blk | .ecb | .clrerr | .rotl _ => false

/-- The check of one script line, every operand of every form (30_encoding.md R57, R58). -/
def ScriptLine.wellFormed : ScriptLine → Bool
  | .wr r v => r.wellFormed && isWordLiteral v
  | .rd r => r.wellFormed
  | .cmd i => i.takesNoOperand
  | .cmdRotl s => isRotation s
  | .memSet addr n bytes => isAddressRange addr n && decide (bytes.length = n) && bytes.all (fun b => decide (b < 256))
  | .memGet addr n => isAddressRange addr n
  | .setkey k0 k1 => isWordLiteral k0 && isWordLiteral k1
  | .setbuf src dst len => isWordLiteral src && isWordLiteral dst && isWordLiteral len
  | .ldblk w0 w1 => isWordLiteral w0 && isWordLiteral w1
  | .encrypt src dst len => isWordLiteral src && isWordLiteral dst && isWordLiteral len
  | .decrypt src dst len => isWordLiteral src && isWordLiteral dst && isWordLiteral len
  | .unit u a => u.isPlainUnit && isWordLiteral a
  | .rotl a s => isWordLiteral a && isRotation s

end Sys2Proof
end

