-- ==== Sys2Proof/Machine/Script.lean ====
section
/-! DEFINITION. The host-script lines and pseudo-instructions as events (30_encoding.md R57, R58). -/

namespace Sys2Proof.Machine

/-- The register number a line names (30_encoding.md R57). -/
def RegRef.toNumber : RegRef → BitVec 8
  | .name r => regNumber r
  | .number n => BitVec.ofNat 8 n

/-- `wr <reg>, <value>` on a named register (30_encoding.md R57). -/
def writeOf (r : Reg) (v : Nat) : Event := .regWrite (regNumber r) (BitVec.ofNat 64 v)

/-- `cmd <mnemonic>`: the command word written to `CMD` (30_encoding.md R57). -/
def commandOf (i : Instr) : Event := .regWrite (regNumber .cmd) (encode i)

/-- Bytes placed from an address on, lowest address first (30_encoding.md R57). -/
def placeBytes (addr : Nat) : List Nat → List Event
  | [] => []
  | b :: rest => .memPlace (BitVec.ofNat 64 addr) (BitVec.ofNat 8 b) :: placeBytes (addr + 1) rest

/-- `setbuf src, dst, len` (30_encoding.md R58). -/
def setBuffer (src dst len : Nat) : List Event := [writeOf .src src, writeOf .dst dst, writeOf .len len]

/-- The events of a well-formed line; an ill-formed line has none (30_encoding.md R57, R58). -/
def eventsOf (line : ScriptLine) : Option (List Event) :=
  if line.wellFormed then
    match line with
    | .wr r v => some [.regWrite (RegRef.toNumber r) (BitVec.ofNat 64 v)]
    | .rd r => some [.regRead (RegRef.toNumber r)]
    | .cmd i => some [commandOf i]
    | .cmdRotl s => some [commandOf (.rotl (BitVec.ofNat 6 s))]
    | .memSet addr _ bytes => some (placeBytes addr bytes)
    | .memGet addr n => some ((List.range n).map (fun k => .memInspect (BitVec.ofNat 64 (addr + k))))
    | .setkey k0 k1 => some [writeOf .key0 k0, writeOf .key1 k1]
    | .setbuf src dst len => some (setBuffer src dst len)
    | .ldblk w0 w1 => some [writeOf .blk0 w0, writeOf .blk1 w1]
    | .encrypt src dst len => some (commandOf .kexpE :: setBuffer src dst len ++ [commandOf .ecb])
    | .decrypt src dst len => some (commandOf .kexpD :: setBuffer src dst len ++ [commandOf .ecb])
    | .unit u a => some [writeOf .opa a, commandOf u, .regRead (regNumber .res)]
    | .rotl a s => some [writeOf .opa a, commandOf (.rotl (BitVec.ofNat 6 s)), .regRead (regNumber .res)]
  else none

/-- A whole script, as the events the host issues one after the other; none if a line is ill-formed. -/
def scriptEvents : List ScriptLine → Option (List Event)
  | [] => some []
  | line :: rest =>
    match eventsOf line, scriptEvents rest with
    | some es, some more => some (es ++ more)
    | _, _ => none

end Sys2Proof.Machine
end

