-- ==== Sys2Proof/Safety.lean ====
section
/-! DEFINITION. What the statements mean by a good state, and by a state as reset leaves it. -/

namespace Sys2Proof.Machine

/-- The schedule belongs to the key: the invariant of 10_state.md R30. -/
def ScheduleMatchesKey (s : State) : Prop :=
  (s.kvalid = true → s.dir = false → s.rk = keySchedule s.key0 s.key1)
    ∧ (s.kvalid = true → s.dir = true → s.rk = reverseSchedule (keySchedule s.key0 s.key1))

/-- What holds between host transactions: R30, the sequencer waits (10_state.md R25), and the memory has its canonical
form. -/
structure State.Inv (s : State) : Prop where
  schedule : ScheduleMatchesKey s
  idle : s.seq.phase = .idle
  memory : Memory.wf s.mem = true

/-- The control state 10_state.md R28 gives after reset; nothing is said of any data register. -/
structure State.JustReset (s : State) : Prop where
  kvalid : s.kvalid = false
  dir : s.dir = false
  err : s.err = .noError
  nblk : s.nblk = 0
  idle : s.seq.phase = .idle

/-- The one word of a command without an immediate: it encodes and decodes as the command, and every other word with
that opcode is illegal (30_encoding.md R50, R53). -/
def CommandWord (i : Instr) (w : Word) : Prop :=
  encode i = w ∧ decode w = .ok i ∧ ∀ v, fieldOpc v = fieldOpc w → v ≠ w → ∃ r, decode v = .error r

/-- An address lies in `[base, base + len)`. -/
def InRegion (base len a : Nat) : Prop := base ≤ a ∧ a < base + len

/-- What an `ECB` needs to run: the five checks of 45_ecb_controller.md R91, in the words of 20_memory.md R39 to
R41. -/
structure EcbAllowed (s : State) : Prop where
  schedule : s.kvalid = true
  wholeBlocks : s.len.toNat % 16 = 0
  belowTop : 0 < s.len.toNat → s.src.toNat + s.len.toNat ≤ 2 ^ 64 ∧ s.dst.toNat + s.len.toNat ≤ 2 ^ 64
  sameOrApart : 0 < s.len.toNat →
    s.dst = s.src ∨ s.src.toNat + s.len.toNat ≤ s.dst.toNat ∨ s.dst.toNat + s.len.toNat ≤ s.src.toNat
  present : 0 < s.len.toNat → ∀ a,
    InRegion s.src.toNat s.len.toNat a ∨ InRegion s.dst.toNat s.len.toNat a → memPresent s.absent a = true

end Sys2Proof.Machine
end

