-- ==== Sys2Proof/Certificates/Slice0/Obligations.lean ====
section
/-! DEFINITION. The statements for the provers, in the order of OBLIGATIONS.json. -/

open Sys2Proof Sys2Proof.Machine

/-! ## Command words -/

/-- 30_encoding.md R50, R52, R53: encoding then decoding gives the command back, and a word that decodes is the
encoding of what it decodes to. -/
def Obligations.DecodeAndEncodeAgree : Prop :=
  (∀ i : Instr, decode (encode i) = .ok i) ∧ ∀ (v : Word) (i : Instr), decode v = .ok i → encode i = v

/-- 30_encoding.md R52, R53: the decoder accepts exactly the words that select a row by `v & mask = match`, takes them
for that row, and no word selects two rows. -/
def Obligations.DecodeFollowsTheOpcodeMap : Prop :=
  (∀ (v : Word) (i : Instr), decode v = .ok i → (rowOf i).selects v = true) ∧
  (∀ (v : Word) (i : Instr), (rowOf i).selects v = true → ∃ j, decode v = .ok j ∧ rowOf j = rowOf i) ∧
  ∀ (v : Word) (i j : Instr), (rowOf i).selects v = true → (rowOf j).selects v = true → rowOf i = rowOf j

/-- 95_test_vectors.md V15: words of the spec and what they decode as. -/
def Obligations.WordsOfTheSpecDecode : Prop :=
  decode 0x0000000000000000 = .ok .nop ∧ decode 0x0000000000000001 = .ok .kexpE ∧
  decode 0x0000000000000002 = .ok .kexpD ∧ decode 0x0000000000000003 = .ok .krev ∧
  decode 0x0000000000000004 = .ok .blk ∧ decode 0x0000000000000005 = .ok .ecb ∧
  decode 0x0000000000000006 = .ok .clrerr ∧ decode 0x0000000000000010 = .ok (.rotl 0) ∧
  decode 0x0000000000003f10 = .ok (.rotl 63) ∧ decode 0x0000000000001810 = .ok (.rotl 24) ∧
  decode 0x0000000000000011 = .ok .perm ∧ decode 0x0000000000000012 = .ok .g0 ∧
  decode 0x0000000000000013 = .ok .g1 ∧ decode 0x0000000000000014 = .ok .a16x3 ∧
  decode 0x0000000000000015 = .ok .frnd ∧ decode 0x0000000000000007 = .error .unassignedOpcode ∧
  decode 0x0000000000000105 = .error .immediateNotZero ∧ decode 0x0000000000004010 = .error .zeroField ∧
  decode 0x0000000100000005 = .error .zeroField

/-- 30_encoding.md R54: a word that selects no row raises `E_ILLCMD` and changes nothing else, or does nothing while an
error is recorded. The premise on the sequencer holds between transactions (`Obligations.EveryStepKeepsTheInvariant`). -/
def Obligations.IllegalWordRaisesAndChangesNothingElse : Prop :=
  ∀ (v : Word) (s : State), s.seq.phase = .idle → (∀ i : Instr, (rowOf i).selects v = false) →
    (s.err = .noError → runCommand v s = .next { s with err := .illCmd }) ∧
    (s.err ≠ .noError → runCommand v s = .next s)

/-- 30_encoding.md R59: the step of a `CMD` write, in the order the rule writes it. -/
def Obligations.CommandWriteFollowsItsSteps : Prop :=
  ∀ (v : Word) (s : State),
    runCommand v s =
      if s.err ≠ .noError then
        (if v = 0x0000000000000006 then exec .clrerr s else .next s)
      else
        match decode v with
        | .error _ => .next (raise .illCmd s)
        | .ok i => exec i s

/-- 30_encoding.md R59, R54, 10_state.md R17: a step whose event is a write to `CMD` runs that word, on the state from
which the event has been taken: a word that decodes is that command's meaning, and a word that does not raises
`E_ILLCMD` and changes nothing else, or does nothing while an error is recorded. That events stand in a list is the
model's choice (log 6). -/
def Obligations.StepRunsTheDecodedCommand : Prop :=
  ∀ (s : State) (v : Word) (rest : List Event), s.hung = false → s.script = .regWrite 0x09 v :: rest →
    step s = runCommand v { s with script := rest } ∧
    (∀ i : Instr, decode v = .ok i → step s = exec i { s with script := rest }) ∧
    (∀ r : Illegal, decode v = .error r →
      (s.err = .noError → s.seq.phase = .idle → step s = .next { s with script := rest, err := .illCmd }) ∧
      (s.err ≠ .noError → step s = .next { s with script := rest }))

/-- 60_exceptions.md R109: with no transaction the core is idle and all state survives unchanged. That the host's
transactions stand in a list is the model's choice (log 6). -/
def Obligations.IdleStepChangesNothing : Prop :=
  ∀ s : State, s.hung = false → s.script = [] → step s = .next s

/-! ## Unit commands -/

/-- 45_ecb_controller.md R90. -/
def Obligations.NopChangesNothing : Prop :=
  (∀ s : State, exec .nop s = .next s) ∧ CommandWord .nop 0x0000000000000000

/-- 40_rotate.md R61: `RES <- ROTL64(OPA, IMM6)` and nothing else, with or without a schedule; the command words; the
corner cases; the example. -/
def Obligations.RotlWritesTheRotationToRes : Prop :=
  (∀ (s : State) (n : BitVec 6), s.err = .noError →
    exec (.rotl n) s = .next { s with res := rotl64 s.opa n }) ∧
  (∀ (s : State) (n : BitVec 6), s.err ≠ .noError → exec (.rotl n) s = .next s) ∧
  (∀ n : BitVec 6, encode (.rotl n) = BitVec.ofNat 64 (0x10 + 256 * n.toNat) ∧ decode (encode (.rotl n)) = .ok (.rotl n)) ∧
  (∀ v : Word, fieldOpc v = 0x10 → fieldZero v ≠ 0 → ∃ r, decode v = .error r) ∧
  (∀ x : Word, rotl64 x 0 = x ∧ rotl64 x 63 = (x >>> 1) ||| (x <<< 63)) ∧
  encode (.rotl 4) = 0x0000000000000410 ∧ rotl64 0x0123456789abcdef 4 = 0x123456789abcdef0

/-- 41_permutation.md R65: `RES <- P(OPA)` and nothing else; the corner cases; the example. -/
def Obligations.PermWritesThePermutationToRes : Prop :=
  (∀ s : State, s.err = .noError → exec .perm s = .next { s with res := permute s.opa }) ∧
  (∀ s : State, s.err ≠ .noError → exec .perm s = .next s) ∧
  CommandWord .perm 0x0000000000000011 ∧
  permute 0 = 0 ∧ permute 0xFFFFFFFFFFFFFFFF = 0xFFFFFFFFFFFFFFFF ∧
  permute 0x0123456789abcdef = 0xef8923cd6701ab45

/-- 42_nonlinear.md R70: `RES <- G0(OPA)` and nothing else; the corner cases; the example. -/
def Obligations.G0CommandWritesRes : Prop :=
  (∀ s : State, s.err = .noError → exec .g0 s = .next { s with res := g0 s.opa }) ∧
  (∀ s : State, s.err ≠ .noError → exec .g0 s = .next s) ∧
  CommandWord .g0 0x0000000000000012 ∧
  g0 0 = 0 ∧ g0 0xFFFFFFFFFFFFFFFF = 0xEEEEEEEEEEEEEEEE ∧ g0 0x0123456789abcdef = 0x012b456f89a3dc7e

/-- 42_nonlinear.md R71: `RES <- G1(OPA)` and nothing else; the corner cases; the example. -/
def Obligations.G1CommandWritesRes : Prop :=
  (∀ s : State, s.err = .noError → exec .g1 s = .next { s with res := g1 s.opa }) ∧
  (∀ s : State, s.err ≠ .noError → exec .g1 s = .next s) ∧
  CommandWord .g1 0x0000000000000013 ∧
  g1 0 = 0 ∧ g1 0xFFFFFFFFFFFFFFFF = 0xBBBBBBBBBBBBBBBB ∧ g1 0x0123456789abcdef = 0x0123476589edcfab

/-- 43_key_schedule.md R76: `RES <- A16X3(OPA)` and nothing else; the corner cases; the example. -/
def Obligations.A16x3CommandWritesRes : Prop :=
  (∀ s : State, s.err = .noError → exec .a16x3 s = .next { s with res := a16x3 s.opa }) ∧
  (∀ s : State, s.err ≠ .noError → exec .a16x3 s = .next s) ∧
  CommandWord .a16x3 0x0000000000000014 ∧
  a16x3 0 = 0 ∧ a16x3 0xFFFFFFFFFFFFFFFF = 0x0F0FFFFFFFFFFFFF ∧ a16x3 0x0000000000000001 = 0x4210000000000000 ∧
  a16 0x0000000000000001 = 0x1000000000000000 ∧ a16 0x1000000000000000 = 0x2100000000000000 ∧
  a16 0x2100000000000000 = 0x4210000000000000

/-- 44_round_function.md R86: `RES <- F(OPA)` and nothing else; the corner cases; the example. -/
def Obligations.FrndCommandWritesRes : Prop :=
  (∀ s : State, s.err = .noError → exec .frnd s = .next { s with res := roundF s.opa }) ∧
  (∀ s : State, s.err ≠ .noError → exec .frnd s = .next s) ∧
  CommandWord .frnd 0x0000000000000015 ∧
  roundF 0 = 0 ∧ roundF 0xFFFFFFFFFFFFFFFF = 0x5555555555555555 ∧
  g0 0x0123456789abcdef = 0x012b456f89a3dc7e ∧ rotl64 0x0123456789abcdef 4 = 0x123456789abcdef0 ∧
  g1 0x123456789abcdef0 = 0x123476589edcfab0 ∧ permute 0x131f3337177f26ce = 0xce171f2637137f33 ∧
  roundF 0x0123456789abcdef = 0xce171f2637137f33

/-! ## Commands on the schedule and the block -/

/-- 43_key_schedule.md R77: the 54 round keys, `DIR` and `KVALID`, nothing else that the host can see, whatever `KVALID`
was; `q` is the hidden working state (10_state.md R24, R25). -/
def Obligations.KexpEDerivesTheSchedule : Prop :=
  (∀ s : State, s.err = .noError → ∃ q : Sequencer, q.phase = s.seq.phase ∧
    exec .kexpE s =
      .next { s with rk := keySchedule s.key0 s.key1, dir := false, kvalid := true, seq := q }) ∧
  (∀ s : State, s.err ≠ .noError → exec .kexpE s = .next s) ∧
  CommandWord .kexpE 0x0000000000000001 ∧
  (∀ k0 k1 : Word, (keySchedule k0 k1)[0] = k0 ∧ (keySchedule k0 k1)[1] = k1) ∧
  (keySchedule 0 0)[2] = 0x0000000000000001 ∧ (keySchedule 0 0)[3] = 0x4210000000000002 ∧
  (keySchedule 0 0)[4] = 0xa5a4210000000002

/-- 43_key_schedule.md R78: `RK[i] = KS(KEY0, KEY1)[53 - i]`, `DIR` and `KVALID`, nothing else that the host can see; the
corner cases; the same effect as `KEXP.E` followed by `KREV`; the example. -/
def Obligations.KexpDDerivesTheReversedSchedule : Prop :=
  (∀ s : State, s.err = .noError → ∃ (rk : Schedule) (q : Sequencer), q.phase = s.seq.phase ∧
    (∀ (i : Nat) (h : i < 54), rk[i] = (keySchedule s.key0 s.key1)[53 - i]) ∧
    rk[53] = s.key0 ∧ rk[52] = s.key1 ∧
    exec .kexpD s = .next { s with rk := rk, dir := true, kvalid := true, seq := q }) ∧
  (∀ s : State, s.err = .noError →
    ∃ t u : State, exec .kexpE s = .next t ∧ exec .krev t = .next u ∧ exec .kexpD s = .next u) ∧
  (∀ s : State, s.err ≠ .noError → exec .kexpD s = .next s) ∧
  CommandWord .kexpD 0x0000000000000002 ∧
  (∀ s : State, s.err = .noError → s.key0 = 0 → s.key1 = 0 → ∃ t : State, exec .kexpD s = .next t ∧
    t.rk[0] = 0x283809a1de8e5001 ∧ t.rk[51] = 0x0000000000000001 ∧ t.rk[52] = 0 ∧ t.rk[53] = 0)

/-- 43_key_schedule.md R80: with a schedule, `RK[i]` and `RK[53 - i]` change places and `DIR` is inverted, nothing else
that the host can see, and the invariant of R30 is kept; without one, `E_NOKEY` and nothing else; two in a row restore;
the example. -/
def Obligations.KrevReversesTheSchedule : Prop :=
  (∀ s : State, s.err = .noError → s.kvalid = true → ∃ (rk : Schedule) (q : Sequencer), q.phase = s.seq.phase ∧
    (∀ (i : Nat) (h : i < 54), rk[i] = s.rk[53 - i]) ∧
    exec .krev s = .next { s with rk := rk, dir := !s.dir, seq := q } ∧
    (ScheduleMatchesKey s → ScheduleMatchesKey { s with rk := rk, dir := !s.dir, seq := q })) ∧
  (∀ s : State, s.err = .noError → s.seq.phase = .idle → s.kvalid = false →
    exec .krev s = .next { s with err := .noKey }) ∧
  (∀ s : State, s.err = .noError → s.kvalid = true →
    ∃ t u : State, exec .krev s = .next t ∧ exec .krev t = .next u ∧ u.rk = s.rk ∧ u.dir = s.dir) ∧
  (∀ s : State, s.err ≠ .noError → exec .krev s = .next s) ∧
  CommandWord .krev 0x0000000000000003 ∧
  (∀ s : State, s.err = .noError → s.key0 = 0 → s.key1 = 0 →
    ∃ t u : State, exec .kexpE s = .next t ∧ exec .krev t = .next u ∧
      u.rk[0] = 0x283809a1de8e5001 ∧ u.rk[53] = 0 ∧ statusWord u = 0x3)

/-- 44_round_function.md R87: with a schedule, `BLK0` and `BLK1` take the transformed block and nothing else that the
host can see changes; without one, `E_NOKEY` and nothing else; the example. -/
def Obligations.BlkTransformsTheRegisterBlock : Prop :=
  (∀ s : State, s.err = .noError → s.kvalid = true → ∃ q : Sequencer, q.phase = s.seq.phase ∧
    exec .blk s =
      .next { s with
        blk0 := (transformBlock s.rk (s.blk0, s.blk1)).1
        blk1 := (transformBlock s.rk (s.blk0, s.blk1)).2
        seq := q }) ∧
  (∀ s : State, s.err = .noError → s.seq.phase = .idle → s.kvalid = false →
    exec .blk s = .next { s with err := .noKey }) ∧
  (∀ s : State, s.err ≠ .noError → exec .blk s = .next s) ∧
  CommandWord .blk 0x0000000000000004 ∧
  transformBlock (keySchedule 0xa6d2ae2816157e2b 0x3c4fcf098815f7ab) (0, 0)
    = (0x1b17dddece435528, 0xa493c9395f10715a)

/-- 44_round_function.md R87: "a round trip is `KEXP.E`, `BLK`, `KREV`, `BLK`". -/
def Obligations.BlkRoundTripThroughKrev : Prop :=
  ∀ s : State, s.err = .noError →
    ∃ a b c d : State, exec .kexpE s = .next a ∧ exec .blk a = .next b ∧ exec .krev b = .next c ∧
      exec .blk c = .next d ∧ d.blk0 = s.blk0 ∧ d.blk1 = s.blk1 ∧ d.dir = true ∧ d.mem = s.mem ∧ d.nblk = s.nblk

/-- 45_ecb_controller.md R92: `ERR` alone is cleared, whatever it was, and only the exact word does it; the example. -/
def Obligations.ClrerrClearsTheErrorOnly : Prop :=
  (∀ s : State, exec .clrerr s = .next { s with err := .noError }) ∧
  CommandWord .clrerr 0x0000000000000006 ∧
  (∀ (v : Word) (s : State), s.err ≠ .noError → v ≠ 0x0000000000000006 → runCommand v s = .next s) ∧
  (∀ s : State, statusWord s = 0x31 → statusWord { s with err := .noError } = 0x01)

/-! ## ECB -/

/-- 45_ecb_controller.md R91: when its conditions hold `ECB` completes: `NBLK = LEN/16`, the memory may change, and
nothing else that the host can see does. With `LEN` = 0 the memory does not change either. -/
def Obligations.EcbCompletesWhenAllowed : Prop :=
  ∀ s : State, s.err = .noError → EcbAllowed s →
    ∃ (m : Memory) (q : Sequencer), q.phase = s.seq.phase ∧
      exec .ecb s = .next { s with mem := m, nblk := s.len >>> 4, seq := q } ∧ (s.len = 0 → m = s.mem)

/-- 60_exceptions.md R95, R97, 20_memory.md R39 to R41: exactly one code is recorded, the first that applies; `NBLK` is 0
and nothing else changes. -/
def Obligations.EcbRaisesTheFirstErrorThatApplies : Prop :=
  ∀ s : State, s.err = .noError → s.seq.phase = .idle →
    (s.kvalid = false → exec .ecb s = .next { s with nblk := 0, err := .noKey }) ∧
    (s.kvalid = true → s.len.toNat % 16 ≠ 0 → exec .ecb s = .next { s with nblk := 0, err := .badLen }) ∧
    (s.kvalid = true → s.len.toNat % 16 = 0 → 0 < s.len.toNat →
      (2 ^ 64 < s.src.toNat + s.len.toNat ∨ 2 ^ 64 < s.dst.toNat + s.len.toNat) →
        exec .ecb s = .next { s with nblk := 0, err := .range }) ∧
    (s.kvalid = true → s.len.toNat % 16 = 0 → 0 < s.len.toNat →
      s.src.toNat + s.len.toNat ≤ 2 ^ 64 → s.dst.toNat + s.len.toNat ≤ 2 ^ 64 →
      s.dst ≠ s.src → s.dst.toNat < s.src.toNat + s.len.toNat → s.src.toNat < s.dst.toNat + s.len.toNat →
        exec .ecb s = .next { s with nblk := 0, err := .overlap }) ∧
    (s.kvalid = true → s.len.toNat % 16 = 0 → 0 < s.len.toNat →
      s.src.toNat + s.len.toNat ≤ 2 ^ 64 → s.dst.toNat + s.len.toNat ≤ 2 ^ 64 →
      (s.dst = s.src ∨ s.src.toNat + s.len.toNat ≤ s.dst.toNat ∨ s.dst.toNat + s.len.toNat ≤ s.src.toNat) →
      (∃ a, (InRegion s.src.toNat s.len.toNat a ∨ InRegion s.dst.toNat s.len.toNat a) ∧
        memPresent s.absent a = false) →
        exec .ecb s = .next { s with nblk := 0, err := .bus })

/-- 45_ecb_controller.md R91, R88: "the bytes of `[DST, DST+LEN)` are `ECBF(old bytes of [SRC, SRC+LEN), RK)` and every
other byte of buffer memory is unchanged". -/
def Obligations.EcbTransformsTheBufferOnly : Prop :=
  ∀ s : State, s.err = .noError → Memory.wf s.mem = true → EcbAllowed s →
    ∃ t : State, exec .ecb s = .next t ∧
      ecbf s.rk (bufferBytes s.mem s.src.toNat s.len.toNat) = some (bufferBytes t.mem s.dst.toNat s.len.toNat) ∧
      ∀ a, ¬ InRegion s.dst.toNat s.len.toNat a → readByte t.mem a = readByte s.mem a

/-- 45_ecb_controller.md R89 (b), 44_round_function.md R85: in place, `ECB`, `KREV`, `ECB` leave the memory as it was. -/
def Obligations.EcbInPlaceRoundTrip : Prop :=
  ∀ s : State, s.err = .noError → Memory.wf s.mem = true → EcbAllowed s → s.dst = s.src →
    ∃ t u v : State, exec .ecb s = .next t ∧ exec .krev t = .next u ∧ exec .ecb u = .next v ∧
      v.mem = s.mem ∧ v.nblk = s.len >>> 4

/-- 20_memory.md R44: "the final contents of the output Buffer are the same for every processing order". -/
def Obligations.BlockOrderIsNotObservable : Prop :=
  ∀ (s : State) (order : List Nat), Memory.wf s.mem = true → EcbAllowed s →
    order.Perm (List.range (s.len.toNat / 16)) →
      (order.foldl ecbBlock s).mem = ((List.range (s.len.toNat / 16)).foldl ecbBlock s).mem

/-- 45_ecb_controller.md R88, R89: `ECBF` keeps the length, splits over concatenation, is undone by the reversed
schedule, maps the empty buffer to itself and equal blocks to equal blocks, and has no value on other lengths. -/
def Obligations.EcbfLaws : Prop :=
  (∀ (rk : Schedule) (a b : List Byte), a.length % 16 = 0 → b.length % 16 = 0 →
    ∃ x y, ecbf rk a = some x ∧ ecbf rk b = some y ∧ ecbf rk (a ++ b) = some (x ++ y)) ∧
  (∀ (rk : Schedule) (bytes : List Byte), bytes.length % 16 = 0 →
    ∃ out, ecbf rk bytes = some out ∧ out.length = bytes.length ∧ ecbf (reverseSchedule rk) out = some bytes) ∧
  (∀ rk : Schedule, ecbf rk [] = some []) ∧
  (∀ (rk : Schedule) (bytes out : List Byte) (i j : Nat), ecbf rk bytes = some out →
    (bytes.drop (16 * i)).take 16 = (bytes.drop (16 * j)).take 16 →
      (out.drop (16 * i)).take 16 = (out.drop (16 * j)).take 16) ∧
  (∀ (rk : Schedule) (bytes : List Byte), bytes.length % 16 ≠ 0 → ecbf rk bytes = none)

/-- 10_state.md R18, 44_round_function.md R87, 45_ecb_controller.md R91: `BLK` and `ECB` do not read `DIR`: with `DIR` the
other way they do the same. -/
def Obligations.DataPathDoesNotReadDir : Prop :=
  ∀ (s : State) (d : Bool),
    (∃ t : State, exec .blk s = .next t ∧ exec .blk { s with dir := d } = .next { t with dir := d }) ∧
    (∃ t : State, exec .ecb s = .next t ∧ exec .ecb { s with dir := d } = .next { t with dir := d })

/-! ## The cipher's functions -/

/-- 40_rotate.md R60: the formula, its case 0, and where every bit goes. -/
def Obligations.RotationMovesEveryBit : Prop :=
  (∀ x : Word, rotl64 x 0 = x) ∧
  (∀ (x : Word) (s : BitVec 6), s ≠ 0 → rotl64 x s = (x <<< s.toNat) ||| (x >>> (64 - s.toNat))) ∧
  ∀ (x : Word) (s : BitVec 6) (i : Nat), i < 64 → (rotl64 x s).getLsbD ((i + s.toNat) % 64) = x.getLsbD i

/-- 40_rotate.md R62, its laws (a) to (f); the amount is 6 bits wide, so that `a + b` and `-s` are modulo 64. -/
def Obligations.RotationLaws : Prop :=
  (∀ (x : Word) (a b : BitVec 6), rotl64 (rotl64 x a) b = rotl64 x (a + b)) ∧
  (∀ s : BitVec 6, Function.Bijective (fun x : Word => rotl64 x s)) ∧
  (∀ (x : Word) (s : BitVec 6), rotl64 (rotl64 x s) (-s) = x ∧ rotl64 (rotl64 x (-s)) s = x) ∧
  (∀ (x y : Word) (s : BitVec 6),
    rotl64 (x ^^^ y) s = rotl64 x s ^^^ rotl64 y s ∧ rotl64 (x &&& y) s = rotl64 x s &&& rotl64 y s ∧
    rotl64 (x ||| y) s = rotl64 x s ||| rotl64 y s ∧ rotl64 (~~~x) s = ~~~(rotl64 x s)) ∧
  (∀ (x : Word) (s : BitVec 6), s ≠ 0 →
    (x <<< s.toNat) &&& (x >>> (64 - s.toNat)) = 0 ∧
    rotl64 x s = (x <<< s.toNat) ^^^ (x >>> (64 - s.toNat)) ∧
    rotl64 x s = (x <<< s.toNat) + (x >>> (64 - s.toNat))) ∧
  (∀ (x : Word) (k : Nat), k < 16 →
    lane (rotl64 x 60) k = lane x ((k + 1) % 16) ∧ lane (rotl64 x 4) ((k + 1) % 16) = lane x k) ∧
  (∀ s : BitVec 6, rotl64 0 s = 0 ∧ rotl64 0xFFFFFFFFFFFFFFFF s = 0xFFFFFFFFFFFFFFFF)

/-- 41_permutation.md R64: where each byte goes, bijective, linear, of order exactly 8, and the inverse. -/
def Obligations.PermutationMovesWholeBytes : Prop :=
  (∀ (x : Word) (k : Nat), k < 8 → byteOf (permute x) ([7, 4, 1, 6, 3, 0, 5, 2].getD k 0) = byteOf x k) ∧
  Function.Bijective permute ∧
  (∀ a b : Word, permute (a ^^^ b) = permute a ^^^ permute b) ∧
  (∀ x : Word, permute^[8] x = x) ∧
  (∀ n : Nat, 0 < n → n < 8 → ∃ x : Word, permute^[n] x ≠ x) ∧
  (∀ x : Word, rotl64 (permute x &&& 0xFF00FF00FF00FF00) 8 ||| rotl64 (permute x &&& 0x00FF00FF00FF00FF) 40 = x) ∧
  permute 0 = 0 ∧ permute 0xFFFFFFFFFFFFFFFF = 0xFFFFFFFFFFFFFFFF

/-- 42_nonlinear.md R67: the two statements, and what they do to the bits `b3 b2 b1 b0` of every lane. -/
def Obligations.G0OnLaneBits : Prop :=
  (∀ x : Word,
    let x1 := x ^^^ ((x >>> 3) &&& (x >>> 2) &&& 0x1111111111111111)
    g0 x = x1 ^^^ ((x1 <<< 3) &&& (x1 <<< 2) &&& 0x8888888888888888)) ∧
  ∀ (x : Word) (k : Nat), k < 16 →
    let b := fun j => (lane x k).getLsbD j
    let b0' := b 0 ^^ (b 3 && b 2)
    (lane (g0 x) k).getLsbD 0 = b0' ∧ (lane (g0 x) k).getLsbD 1 = b 1 ∧ (lane (g0 x) k).getLsbD 2 = b 2 ∧
    (lane (g0 x) k).getLsbD 3 = (b 3 ^^ (b0' && b 1))

/-- 42_nonlinear.md R68: the two statements, and what they do to the bits `b3 b2 b1 b0` of every lane. -/
def Obligations.G1OnLaneBits : Prop :=
  (∀ x : Word,
    let x1 := x ^^^ ((x >>> 1) &&& (x <<< 1) &&& 0x4444444444444444)
    g1 x = x1 ^^^ ((x1 <<< 1) &&& (x1 >>> 1) &&& 0x2222222222222222)) ∧
  ∀ (x : Word) (k : Nat), k < 16 →
    let b := fun j => (lane x k).getLsbD j
    let b2' := b 2 ^^ (b 3 && b 1)
    (lane (g1 x) k).getLsbD 0 = b 0 ∧ (lane (g1 x) k).getLsbD 1 = (b 1 ^^ (b 0 && b2')) ∧
    (lane (g1 x) k).getLsbD 2 = b2' ∧ (lane (g1 x) k).getLsbD 3 = b 3

/-- 42_nonlinear.md R69: the lane tables, bijective on Words, fixing 0, not their own inverses, not linear. -/
def Obligations.NonlinearLaneTables : Prop :=
  (∀ (x : Word) (k : Nat), k < 16 →
    lane (g0 x) k = BitVec.ofNat 4
      ([0x0, 0x1, 0x2, 0xB, 0x4, 0x5, 0x6, 0xF, 0x8, 0x9, 0xA, 0x3, 0xD, 0xC, 0x7, 0xE].getD (lane x k).toNat 0) ∧
    lane (g1 x) k = BitVec.ofNat 4
      ([0x0, 0x1, 0x2, 0x3, 0x4, 0x7, 0x6, 0x5, 0x8, 0x9, 0xE, 0xD, 0xC, 0xF, 0xA, 0xB].getD (lane x k).toNat 0)) ∧
  Function.Bijective g0 ∧ Function.Bijective g1 ∧ g0 0 = 0 ∧ g1 0 = 0 ∧
  g0 (g0 0x7) = 0xE ∧ g1 (g1 0xB) = 0xF ∧ g0 0x1 ^^^ g0 0x2 = 0x3 ∧ g0 0x3 = 0xB

/-- 43_key_schedule.md R72: the formula; only bits 63:60 of the rotated word change; the lanes; bijective; linear. -/
def Obligations.MixingStepInLanes : Prop :=
  (∀ w : Word, a16 w = rotl64 w 60 ^^^ ((rotl4 ((rotl64 w 60).extractLsb' 56 4)).setWidth 64 <<< 60)) ∧
  (∀ w : Word, (a16 w).extractLsb' 0 60 = (rotl64 w 60).extractLsb' 0 60) ∧
  (∀ w : Word, lane (a16 w) 15 = lane w 0 ^^^ rotl4 (lane w 15) ∧ lane (a16 w) 14 = lane w 15 ∧
    ∀ k : Nat, k ≤ 13 → lane (a16 w) k = lane w (k + 1)) ∧
  Function.Bijective a16 ∧ (∀ a b : Word, a16 (a ^^^ b) = a16 a ^^^ a16 b)

/-- 43_key_schedule.md R74: the two seeds and the recurrence for `r` from 0 to 51. -/
def Obligations.ScheduleFollowsTheRecurrence : Prop :=
  ∀ k0 k1 : Word, (keySchedule k0 k1)[0] = k0 ∧ (keySchedule k0 k1)[1] = k1 ∧
    ∀ (r : Nat) (h : r ≤ 51),
      (keySchedule k0 k1)[r + 2] =
        a16x3 (keySchedule k0 k1)[r + 1] ^^^ (keySchedule k0 k1)[r] ^^^ BitVec.ofNat 64 (r + 1)

/-- 43_key_schedule.md R75: `REV(s)[i] = s[53 - i]`, the 27 swaps in place compute it, and it is its own inverse. -/
def Obligations.ReversalInPlaceIsReversal : Prop :=
  (∀ (s : Schedule) (i : Nat) (h : i < 54), (reverseSchedule s)[i] = s[53 - i]) ∧
  (∀ s : Schedule, (List.range 27).foldl swapRoundKeys s = reverseSchedule s) ∧
  (∀ s : Schedule, reverseInPlace s = reverseSchedule s) ∧
  (∀ s : Schedule, reverseSchedule (reverseSchedule s) = s)

/-- 43_key_schedule.md R81: the laws (a) to (d) of the schedule. -/
def Obligations.ScheduleLaws : Prop :=
  (∀ s : State, s.err = .noError →
    ∃ t u : State, exec .kexpE s = .next t ∧ exec .kexpD s = .next u ∧
      ∀ (i : Nat) (h : i < 54), u.rk[i] = t.rk[53 - i]) ∧
  (∀ s s' : State, s.err = .noError → s'.err = .noError → s.key0 = s'.key0 → s.key1 = s'.key1 →
    ∃ t t' u u' : State, exec .kexpE s = .next t ∧ exec .kexpE s' = .next t' ∧ t.rk = t'.rk ∧
      exec .kexpD s = .next u ∧ exec .kexpD s' = .next u' ∧ u.rk = u'.rk) ∧
  (∀ k0 k1 : Word, (keySchedule k0 k1)[0] = k0 ∧ (keySchedule k0 k1)[1] = k1) ∧
  (∀ k0 k1 k0' k1' : Word, keySchedule k0 k1 = keySchedule k0' k1' → k0 = k0' ∧ k1 = k1') ∧
  (∀ (a0 a1 b0 b1 : Word) (i : Nat) (h : i < 54),
    (keySchedule (a0 ^^^ b0) (a1 ^^^ b1))[i] =
      (keySchedule a0 a1)[i] ^^^ (keySchedule b0 b1)[i] ^^^ (keySchedule 0 0)[i])

/-- 41_permutation.md R63, 43_key_schedule.md R73, 44_round_function.md R82, R83: the formulas of `P` (whose masks select
the even and the odd bytes), `A16X3`, `F` and `ROUND`; `A16X3(0) = 0`, `F(0) = 0`. -/
def Obligations.FormulasOfTheUnits : Prop :=
  (∀ x : Word, permute x = rotl64 (x &&& 0x00FF00FF00FF00FF) 56 ||| rotl64 (x &&& 0xFF00FF00FF00FF00) 24) ∧
  (∀ k : Nat, k < 8 →
    byteOf 0x00FF00FF00FF00FF k = (if k % 2 = 0 then 0xFF else 0) ∧
    byteOf 0xFF00FF00FF00FF00 k = (if k % 2 = 1 then 0xFF else 0)) ∧
  (∀ w : Word, a16x3 w = a16 (a16 (a16 w))) ∧ a16x3 0 = 0 ∧
  (∀ x : Word, roundF x = permute (g0 x ^^^ g1 (rotl64 x 4))) ∧ roundF 0 = 0 ∧
  ∀ x y k : Word, cipherRound (x, y) k = (y ^^^ roundF x ^^^ k, x)

/-- 44_round_function.md R84: `X` starts as word1, `Y` as word0, each of the 54 rounds reads `RK[r]` in order, and the
output is `(X, Y)`. -/
def Obligations.BlockTransformRunsTheRounds : Prop :=
  ∀ (rk : Schedule) (w0 w1 : Word), ∃ x y : Nat → Word, x 0 = w1 ∧ y 0 = w0 ∧
    (∀ (r : Nat) (h : r < 54), (x (r + 1), y (r + 1)) = cipherRound (x r, y r) rk[r]) ∧
    transformBlock rk (w0, w1) = (x 54, y 54)

/-- 44_round_function.md R85 (a), (d): the reversed schedule undoes the transform, for a schedule of any length, and the
transform is a bijection on blocks. -/
def Obligations.BlockTransformRoundTrip : Prop :=
  (∀ (keys : List Word) (b : Word × Word), transformWith keys.reverse (transformWith keys b) = b) ∧
  (∀ (rk : Schedule) (b : Word × Word),
    transformBlock (reverseSchedule rk) (transformBlock rk b) = b ∧
    transformBlock rk (transformBlock (reverseSchedule rk) b) = b) ∧
  (∀ rk : Schedule, Function.Bijective (transformBlock rk))

/-! ## The register file -/

/-- 10_state.md R23: what a read of each register number returns, and that reading changes nothing but what the host
has seen. -/
def Obligations.RegisterReads : Prop :=
  (∀ s : State,
    readRegister 0x00 s = s.key0 ∧ readRegister 0x01 s = s.key1 ∧ readRegister 0x02 s = s.blk0 ∧
    readRegister 0x03 s = s.blk1 ∧ readRegister 0x04 s = s.src ∧ readRegister 0x05 s = s.dst ∧
    readRegister 0x06 s = s.len ∧ readRegister 0x07 s = s.opa ∧ readRegister 0x08 s = s.res ∧
    readRegister 0x09 s = 0 ∧ readRegister 0x0A s = statusWord s ∧
    readRegister 0x0B s = 0x0000000000101036 ∧ readRegister 0x0C s = s.nblk ∧
    (∀ (i : Nat) (h : i < 54), readRegister (BitVec.ofNat 8 (0x40 + i)) s = s.rk[i])) ∧
  ∀ (s : State) (n : BitVec 8) (rest : List Event), s.hung = false → s.script = .regRead n :: rest →
    step s = .next { s with script := rest, observed := .register n (readRegister n s) :: s.observed }

/-- 10_state.md R18, R19, 60_exceptions.md R95: the fields of `STATUS`, the number of each error in them, of which 7 to
15 never appear, and the fields of `ID`. -/
def Obligations.StatusAndIdLayout : Prop :=
  (∀ s : State,
    (statusWord s).getLsbD 0 = s.kvalid ∧ (statusWord s).getLsbD 1 = s.dir ∧
    (statusWord s).extractLsb' 2 2 = 0 ∧ (statusWord s).extractLsb' 4 4 = s.err.code ∧
    (statusWord s).extractLsb' 8 56 = 0 ∧ s.err.code.toNat ≤ 6 ∧ (s.err = .noError ↔ s.err.code = 0)) ∧
  (ErrCode.noError.code = 0 ∧ ErrCode.illCmd.code = 1 ∧ ErrCode.noKey.code = 2 ∧ ErrCode.badLen.code = 3 ∧
    ErrCode.range.code = 4 ∧ ErrCode.overlap.code = 5 ∧ ErrCode.bus.code = 6) ∧
  (∀ s : State, readRegister 0x0B s = 0x0000000000101036) ∧
  (idWord.extractLsb' 0 8).toNat = 54 ∧ (idWord.extractLsb' 8 8).toNat = 16 ∧
  (idWord.extractLsb' 16 8).toNat = 16 ∧ idWord.extractLsb' 24 40 = 0

/-- 10_state.md R23, R27: a host write to each register number other than `CMD`: the read/write registers take the value,
a key write clears `KVALID` as well and leaves `RK` and `DIR`, the read-only ones ignore it, whatever `ERR` is. -/
def Obligations.RegisterWrites : Prop :=
  ∀ (s : State) (n : BitVec 8) (v : Word) (rest : List Event), s.hung = false →
    s.script = .regWrite n v :: rest →
    (n = 0x00 → step s = .next { s with script := rest, key0 := v, kvalid := false }) ∧
    (n = 0x01 → step s = .next { s with script := rest, key1 := v, kvalid := false }) ∧
    (n = 0x02 → step s = .next { s with script := rest, blk0 := v }) ∧
    (n = 0x03 → step s = .next { s with script := rest, blk1 := v }) ∧
    (n = 0x04 → step s = .next { s with script := rest, src := v }) ∧
    (n = 0x05 → step s = .next { s with script := rest, dst := v }) ∧
    (n = 0x06 → step s = .next { s with script := rest, len := v }) ∧
    (n = 0x07 → step s = .next { s with script := rest, opa := v }) ∧
    (n = 0x08 ∨ n = 0x0A ∨ n = 0x0B ∨ n = 0x0C ∨ (0x40 ≤ n.toNat ∧ n.toNat ≤ 0x75) →
      step s = .next { s with script := rest })

/-- 10_state.md R22: reserved register numbers read 0 and ignore writes, with no effect on any state and no error. -/
def Obligations.ReservedRegistersHaveNoEffect : Prop :=
  ∀ (s : State) (n : BitVec 8), (0x0D ≤ n.toNat ∧ n.toNat ≤ 0x3F) ∨ 0x76 ≤ n.toNat → s.hung = false →
    (∀ (v : Word) (rest : List Event), s.script = .regWrite n v :: rest → step s = .next { s with script := rest }) ∧
    (∀ rest : List Event, s.script = .regRead n :: rest →
      step s = .next { s with script := rest, observed := .register n 0 :: s.observed })

/-- 10_state.md R27: what each event does to `KVALID`, so that it is 1 exactly when the most recent of reset, a key
write and a `KEXP` that ran is a `KEXP`. -/
def Obligations.KvalidFollowsTheLatestKeyEvent : Prop :=
  ∀ (s t : State) (e : Event) (rest : List Event), s.hung = false → s.script = e :: rest → step s = .next t →
    t.kvalid =
      match e with
      | .reset => false
      | .resetInside _ _ _ => false
      | .regWrite n v =>
        if n = 0x00 ∨ n = 0x01 then false
        else if n = 0x09 ∧ s.err = .noError ∧ (v = 0x0000000000000001 ∨ v = 0x0000000000000002) then true
        else s.kvalid
      | .regRead _ => s.kvalid
      | .memPlace _ _ => s.kvalid
      | .memInspect _ => s.kvalid

/-- 10_state.md R23, its table: no command writes a register outside its row. -/
def Obligations.CommandsWriteOnlyTheirRegisters : Prop :=
  ∀ (i : Instr) (s : State), ∃ t : State, exec i s = .next t ∧
    t.key0 = s.key0 ∧ t.key1 = s.key1 ∧ t.src = s.src ∧ t.dst = s.dst ∧ t.len = s.len ∧ t.opa = s.opa ∧
    t.absent = s.absent ∧ t.script = s.script ∧ t.observed = s.observed ∧ t.hung = s.hung ∧
    t.freeCount = s.freeCount ∧ (s.seq.phase = .idle → t.seq.phase = .idle) ∧
    (i ≠ .kexpE ∧ i ≠ .kexpD ∧ i ≠ .krev → t.rk = s.rk ∧ t.dir = s.dir) ∧
    (i ≠ .kexpE ∧ i ≠ .kexpD → t.kvalid = s.kvalid) ∧
    (i ≠ .blk → t.blk0 = s.blk0 ∧ t.blk1 = s.blk1) ∧
    (i ≠ .ecb → t.nblk = s.nblk ∧ t.mem = s.mem) ∧
    ((∀ n, i ≠ .rotl n) ∧ i ≠ .perm ∧ i ≠ .g0 ∧ i ≠ .g1 ∧ i ≠ .a16x3 ∧ i ≠ .frnd → t.res = s.res) ∧
    (i ≠ .krev ∧ i ≠ .blk ∧ i ≠ .ecb ∧ i ≠ .clrerr → t.err = s.err)

/-! ## Errors -/

/-- 60_exceptions.md R98: what `raise Error(code)` records and what it leaves. -/
def Obligations.RaiseRecordsTheCodeOnly : Prop :=
  ∀ (c : ErrCode) (s : State), ∃ q : Sequencer, q.phase = .idle ∧
    raise c s = { s with err := if s.err = .noError then c else s.err, seq := q } ∧
    (s.seq.phase = .idle → q = s.seq)

/-- 60_exceptions.md R99: while an error is recorded, a write to `CMD` of any word but `CLRERR`'s changes nothing, and a
step that leaves an error recorded leaves the first one. -/
def Obligations.FailStopKeepsTheFirstError : Prop :=
  (∀ (s : State) (v : Word) (rest : List Event), s.hung = false → s.script = .regWrite 0x09 v :: rest →
    s.err ≠ .noError → v ≠ 0x0000000000000006 → step s = .next { s with script := rest }) ∧
  (∀ s t : State, step s = .next t → s.err ≠ .noError → t.err ≠ .noError → t.err = s.err)

/-- 60_exceptions.md R101, R95, R98: only `KREV`, `BLK` and `ECB` raise, and a command that raises has changed nothing
but `ERR`, and `NBLK` to 0 if it is `ECB`. -/
def Obligations.RaisingCommandHasNoOtherEffect : Prop :=
  ∀ (i : Instr) (s t : State), s.err = .noError → s.seq.phase = .idle → exec i s = .next t → t.err ≠ .noError →
    (i = .krev ∨ i = .blk ∨ i = .ecb) ∧
    t = { s with err := t.err, nblk := if i = .ecb then 0 else s.nblk }

/-! ## Memory -/

/-- 20_memory.md R33, R35: the Word read has byte `k` of memory as its byte `k`; a Word written puts its byte `k` at
`a + k`, changes no other byte, and reads back. The canonical form is the model's own invariant. -/
def Obligations.WordAccessIsLittleEndian : Prop :=
  (∀ (m : Memory) (a k : Nat), k < 8 → byteOf (readWord m a) k = readByte m (a + k)) ∧
  (∀ (m : Memory) (a : Nat) (w : Word), Memory.wf m = true →
    (∀ k, k < 8 → readByte (writeWord m a w) (a + k) = byteOf w k) ∧ readWord (writeWord m a w) a = w) ∧
  (∀ (m : Memory) (a b : Nat) (w : Word), b < a ∨ a + 8 ≤ b → readByte (writeWord m a w) b = readByte m b)

/-- 20_memory.md R41: the check on ranges is the check of every byte. -/
def Obligations.PresenceCheckCoversEveryByte : Prop :=
  ∀ (holes : List Hole) (base len : Nat),
    regionPresent holes base len = true ↔ ∀ a, InRegion base len a → memPresent holes a = true

/-- 20_memory.md R40: the overlap check refuses exactly the regions that are not identical and share a byte. -/
def Obligations.OverlapCheckIsExact : Prop :=
  ∀ src dst len : Nat, 0 < len →
    (partlyOverlap src dst len = false ↔ dst = src ∨ dst ≥ src + len ∨ src ≥ dst + len) ∧
    (partlyOverlap src dst len = true ↔ dst ≠ src ∧ ∃ a, InRegion src len a ∧ InRegion dst len a)

/-- 20_memory.md R31, R43: what the host places in a byte that exists it reads back, every other byte stays, and no
register changes; a byte that does not exist stops the step. The stop, and one byte a time, are the model's (log 8). -/
def Obligations.HostMemoryAccess : Prop :=
  ∀ (s : State) (a : Word) (rest : List Event), s.hung = false → Memory.wf s.mem = true →
    (∀ b : Byte, s.script = .memPlace a b :: rest → memPresent s.absent a.toNat = true →
      ∃ m : Memory, step s = .next { s with script := rest, mem := m } ∧ readByte m a.toNat = b ∧
        ∀ c, c ≠ a.toNat → readByte m c = readByte s.mem c) ∧
    (s.script = .memInspect a :: rest → memPresent s.absent a.toNat = true →
      step s = .next { s with script := rest, observed := .byte a (readByte s.mem a.toNat) :: s.observed }) ∧
    (∀ b : Byte, s.script = .memPlace a b :: rest ∨ s.script = .memInspect a :: rest →
      memPresent s.absent a.toNat = false → step s = .fault (.absentByte a))

/-! ## Reset -/

/-- 10_state.md R28, 70_reset_and_hazards.md R111: the control state right after reset, and `STATUS`, `NBLK`, `ID` as the
host reads them. Nothing is said of a data register. -/
def Obligations.ResetLeavesTheControlState : Prop :=
  State.reset.JustReset ∧ readRegister 0x0A State.reset = 0 ∧ readRegister 0x0C State.reset = 0 ∧
  readRegister 0x0B State.reset = 0x0000000000101036 ∧ readRegister 0x09 State.reset = 0

/-- 70_reset_and_hazards.md R110, R111: a reset between transactions; buffer memory is unchanged, the control state is
as R28 says, and the data registers are free (log 2). The core then waits for the host: unlike a reset inside a command,
it stops no later step (`hung`, log 9). -/
def Obligations.ResetEventClearsTheControlState : Prop :=
  ∀ (s : State) (rest : List Event), s.hung = false → s.script = .reset :: rest →
    ∃ t : State, step s = .next t ∧ t.JustReset ∧ t.mem = s.mem ∧ t.absent = s.absent ∧ t.script = rest ∧
      t.observed = s.observed ∧ t.hung = false ∧ readRegister 0x0A t = 0

/-- 70_reset_and_hazards.md R112: a reset inside a command: the core is as after reset; after an `ECB` memory holds the
output of the blocks already stored, possibly with word0 of the next, and after any other word, or an `ECB` that is
ignored or that one of its checks refuses (45_ecb_controller.md R91, 60_exceptions.md R99, R101), it is unchanged; the
transaction never completes; the platform and what the host has read are as before. That every later step is a fault, and that the event carries the place of the reset, is the
model's form of it (log 9). -/
def Obligations.ResetInsideCommandKeepsStoredBlocks : Prop :=
  ∀ (s : State) (v : Word) (n : Nat) (half : Bool) (rest : List Event), s.hung = false → s.seq.phase = .idle →
    s.script = .resetInside v n half :: rest →
    ∃ t : State, step s = .next t ∧ t.JustReset ∧ t.hung = true ∧ step t = .fault .transactionNeverCompletes ∧
      t.absent = s.absent ∧ t.observed = s.observed ∧ t.script = rest ∧
      (decode v ≠ .ok .ecb → t.mem = s.mem) ∧
      (s.err ≠ .noError ∨ ecbError s ≠ .noError → t.mem = s.mem) ∧
      (decode v = .ok .ecb → ∃ k, k ≤ (blockCount s).toNat ∧
        (t.mem = ((List.range k).foldl ecbBlock s).mem ∨
          (k < (blockCount s).toNat ∧
            t.mem = writeWord ((List.range k).foldl ecbBlock s).mem (blockTarget s k)
              (transformBlock s.rk (readBlock ((List.range k).foldl ecbBlock s).mem (blockSource s k))).1)))

/-! ## The whole machine -/

/-- The invariant holds right after reset (10_state.md R30). -/
def Obligations.ResetMeetsTheInvariant : Prop := State.reset.Inv

/-- 10_state.md R30: every step keeps the invariant: the schedule belongs to the key in the order `DIR` says, the
sequencer waits, and the memory has its canonical form. -/
def Obligations.EveryStepKeepsTheInvariant : Prop :=
  ∀ s t : State, s.Inv → step s = .next t → t.Inv

/-- 45_ecb_controller.md R93, 00_scope.md R6: the sequencer, run loop by loop from the `CMD` write, reaches `IDLE` in the
state the command's own meaning answers. The equality covers the hidden registers too; what they hold after a command
(log 3), and what one tick is and how many a command takes (log 16), are the model's DEDUCED readings, not R93's words. -/
def Obligations.SequencerAgreesWithCommands : Prop :=
  ∀ (i : Instr) (s : State), s.seq.phase = .idle →
    exec i s = .next (ticks i (ticksNeeded i s) (startCommand i s)) ∧
    (ticks i (ticksNeeded i s) (startCommand i s)).seq.phase = .idle

/-- 30_encoding.md R57, R58, 10_state.md R11: the number of every register name; what each of the six forms of a line
issues (a `cmd` line writes the row's `match` to `CMD`, a `mem` line goes byte by byte from the lowest address, which is
the model's form, log 8; `ROTL` is written with its amount only, the model's choice, log 17); a script issues its lines in
order; and the pseudo-instructions are their expansions. -/
def Obligations.PseudoInstructionsExpand : Prop :=
  ([Reg.key0, .key1, .blk0, .blk1, .src, .dst, .len, .opa, .res, .cmd, .status, .id, .nblk].map regNumber
    = [0x00, 0x01, 0x02, 0x03, 0x04, 0x05, 0x06, 0x07, 0x08, 0x09, 0x0A, 0x0B, 0x0C]) ∧
  (∀ i : Fin 54, regNumber (.rk i) = BitVec.ofNat 8 (0x40 + i.val)) ∧
  (∀ (r : Reg) (v : Nat), v < 2 ^ 64 →
    eventsOf (.wr (.name r) v) = some [.regWrite (regNumber r) (BitVec.ofNat 64 v)]) ∧
  (∀ n v : Nat, n < 256 → v < 2 ^ 64 →
    eventsOf (.wr (.number n) v) = some [.regWrite (BitVec.ofNat 8 n) (BitVec.ofNat 64 v)]) ∧
  (∀ r : Reg, eventsOf (.rd (.name r)) = some [.regRead (regNumber r)]) ∧
  (∀ n : Nat, n < 256 → eventsOf (.rd (.number n)) = some [.regRead (BitVec.ofNat 8 n)]) ∧
  (∀ i : Instr, (∀ s, i ≠ .rotl s) → eventsOf (.cmd i) = some [.regWrite 0x09 (rowOf i).pattern]) ∧
  (∀ s : Nat, s < 64 → eventsOf (.cmdRotl s) = some [.regWrite 0x09 (BitVec.ofNat 64 (0x10 + 256 * s))]) ∧
  (∀ (addr : Nat) (bytes : List Nat), addr + bytes.length ≤ 2 ^ 64 → (∀ b ∈ bytes, b < 256) →
    eventsOf (.memSet addr bytes.length bytes) = some ((List.range bytes.length).map fun k =>
      .memPlace (BitVec.ofNat 64 (addr + k)) (BitVec.ofNat 8 (bytes.getD k 0)))) ∧
  (∀ addr n : Nat, addr + n ≤ 2 ^ 64 →
    eventsOf (.memGet addr n) = some ((List.range n).map fun k => .memInspect (BitVec.ofNat 64 (addr + k)))) ∧
  (scriptEvents [] = some [] ∧ ∀ (line : ScriptLine) (rest : List ScriptLine) (es more : List Event),
    eventsOf line = some es → scriptEvents rest = some more → scriptEvents (line :: rest) = some (es ++ more)) ∧
  (∀ k0 k1 : Nat, k0 < 2 ^ 64 → k1 < 2 ^ 64 → scriptEvents [.setkey k0 k1]
    = scriptEvents [.wr (.name .key0) k0, .wr (.name .key1) k1]) ∧
  (∀ w0 w1 : Nat, w0 < 2 ^ 64 → w1 < 2 ^ 64 → scriptEvents [.ldblk w0 w1]
    = scriptEvents [.wr (.name .blk0) w0, .wr (.name .blk1) w1]) ∧
  (∀ a b n : Nat, a < 2 ^ 64 → b < 2 ^ 64 → n < 2 ^ 64 →
    scriptEvents [.setbuf a b n] = scriptEvents [.wr (.name .src) a, .wr (.name .dst) b, .wr (.name .len) n] ∧
    scriptEvents [.encrypt a b n] = scriptEvents [.cmd .kexpE, .setbuf a b n, .cmd .ecb] ∧
    scriptEvents [.decrypt a b n] = scriptEvents [.cmd .kexpD, .setbuf a b n, .cmd .ecb]) ∧
  (∀ (u : Instr) (a : Nat), u.isPlainUnit = true → a < 2 ^ 64 → scriptEvents [.unit u a]
    = scriptEvents [.wr (.name .opa) a, .cmd u, .rd (.name .res)]) ∧
  (∀ a s : Nat, a < 2 ^ 64 → s < 64 → scriptEvents [.rotl a s]
    = scriptEvents [.wr (.name .opa) a, .cmdRotl s, .rd (.name .res)])
end

