-- ==== Sys2Proof/Laws/State.lean ====
section
/-! SUPPORT. One lemma per field per named update of the state, each true by rfl, so that no later proof unfolds a
record update; and the lemmas of the sequencer's own updates. -/

namespace Sys2Proof.Machine

@[simp] theorem setRes_key0 (v : Word) (s : State) : (setRes v s).key0 = s.key0 := rfl
@[simp] theorem setRes_key1 (v : Word) (s : State) : (setRes v s).key1 = s.key1 := rfl
@[simp] theorem setRes_blk0 (v : Word) (s : State) : (setRes v s).blk0 = s.blk0 := rfl
@[simp] theorem setRes_blk1 (v : Word) (s : State) : (setRes v s).blk1 = s.blk1 := rfl
@[simp] theorem setRes_src (v : Word) (s : State) : (setRes v s).src = s.src := rfl
@[simp] theorem setRes_dst (v : Word) (s : State) : (setRes v s).dst = s.dst := rfl
@[simp] theorem setRes_len (v : Word) (s : State) : (setRes v s).len = s.len := rfl
@[simp] theorem setRes_opa (v : Word) (s : State) : (setRes v s).opa = s.opa := rfl
@[simp] theorem setRes_res (v : Word) (s : State) : (setRes v s).res = v := rfl
@[simp] theorem setRes_rk (v : Word) (s : State) : (setRes v s).rk = s.rk := rfl
@[simp] theorem setRes_kvalid (v : Word) (s : State) : (setRes v s).kvalid = s.kvalid := rfl
@[simp] theorem setRes_dir (v : Word) (s : State) : (setRes v s).dir = s.dir := rfl
@[simp] theorem setRes_err (v : Word) (s : State) : (setRes v s).err = s.err := rfl
@[simp] theorem setRes_nblk (v : Word) (s : State) : (setRes v s).nblk = s.nblk := rfl
@[simp] theorem setRes_seq (v : Word) (s : State) : (setRes v s).seq = s.seq := rfl
@[simp] theorem setRes_mem (v : Word) (s : State) : (setRes v s).mem = s.mem := rfl
@[simp] theorem setRes_absent (v : Word) (s : State) : (setRes v s).absent = s.absent := rfl
@[simp] theorem setRes_script (v : Word) (s : State) : (setRes v s).script = s.script := rfl
@[simp] theorem setRes_observed (v : Word) (s : State) : (setRes v s).observed = s.observed := rfl
@[simp] theorem setRes_hung (v : Word) (s : State) : (setRes v s).hung = s.hung := rfl
@[simp] theorem setRes_freeCount (v : Word) (s : State) : (setRes v s).freeCount = s.freeCount := rfl

@[simp] theorem setSchedule_key0 (rk : Schedule) (d : Bool) (k : BitVec 6) (s : State) :
    (setSchedule rk d k s).key0 = s.key0 := rfl
@[simp] theorem setSchedule_key1 (rk : Schedule) (d : Bool) (k : BitVec 6) (s : State) :
    (setSchedule rk d k s).key1 = s.key1 := rfl
@[simp] theorem setSchedule_blk0 (rk : Schedule) (d : Bool) (k : BitVec 6) (s : State) :
    (setSchedule rk d k s).blk0 = s.blk0 := rfl
@[simp] theorem setSchedule_blk1 (rk : Schedule) (d : Bool) (k : BitVec 6) (s : State) :
    (setSchedule rk d k s).blk1 = s.blk1 := rfl
@[simp] theorem setSchedule_src (rk : Schedule) (d : Bool) (k : BitVec 6) (s : State) :
    (setSchedule rk d k s).src = s.src := rfl
@[simp] theorem setSchedule_dst (rk : Schedule) (d : Bool) (k : BitVec 6) (s : State) :
    (setSchedule rk d k s).dst = s.dst := rfl
@[simp] theorem setSchedule_len (rk : Schedule) (d : Bool) (k : BitVec 6) (s : State) :
    (setSchedule rk d k s).len = s.len := rfl
@[simp] theorem setSchedule_opa (rk : Schedule) (d : Bool) (k : BitVec 6) (s : State) :
    (setSchedule rk d k s).opa = s.opa := rfl
@[simp] theorem setSchedule_res (rk : Schedule) (d : Bool) (k : BitVec 6) (s : State) :
    (setSchedule rk d k s).res = s.res := rfl
@[simp] theorem setSchedule_rk (rk : Schedule) (d : Bool) (k : BitVec 6) (s : State) :
    (setSchedule rk d k s).rk = rk := rfl
@[simp] theorem setSchedule_kvalid (rk : Schedule) (d : Bool) (k : BitVec 6) (s : State) :
    (setSchedule rk d k s).kvalid = true := rfl
@[simp] theorem setSchedule_dir (rk : Schedule) (d : Bool) (k : BitVec 6) (s : State) :
    (setSchedule rk d k s).dir = d := rfl
@[simp] theorem setSchedule_err (rk : Schedule) (d : Bool) (k : BitVec 6) (s : State) :
    (setSchedule rk d k s).err = s.err := rfl
@[simp] theorem setSchedule_nblk (rk : Schedule) (d : Bool) (k : BitVec 6) (s : State) :
    (setSchedule rk d k s).nblk = s.nblk := rfl
@[simp] theorem setSchedule_seq (rk : Schedule) (d : Bool) (k : BitVec 6) (s : State) :
    (setSchedule rk d k s).seq = { s.seq with ki := k } := rfl
@[simp] theorem setSchedule_mem (rk : Schedule) (d : Bool) (k : BitVec 6) (s : State) :
    (setSchedule rk d k s).mem = s.mem := rfl
@[simp] theorem setSchedule_absent (rk : Schedule) (d : Bool) (k : BitVec 6) (s : State) :
    (setSchedule rk d k s).absent = s.absent := rfl
@[simp] theorem setSchedule_script (rk : Schedule) (d : Bool) (k : BitVec 6) (s : State) :
    (setSchedule rk d k s).script = s.script := rfl
@[simp] theorem setSchedule_observed (rk : Schedule) (d : Bool) (k : BitVec 6) (s : State) :
    (setSchedule rk d k s).observed = s.observed := rfl
@[simp] theorem setSchedule_hung (rk : Schedule) (d : Bool) (k : BitVec 6) (s : State) :
    (setSchedule rk d k s).hung = s.hung := rfl
@[simp] theorem setSchedule_freeCount (rk : Schedule) (d : Bool) (k : BitVec 6) (s : State) :
    (setSchedule rk d k s).freeCount = s.freeCount := rfl

@[simp] theorem setBlock_key0 (o : Word × Word) (s : State) : (setBlock o s).key0 = s.key0 := rfl
@[simp] theorem setBlock_key1 (o : Word × Word) (s : State) : (setBlock o s).key1 = s.key1 := rfl
@[simp] theorem setBlock_blk0 (o : Word × Word) (s : State) : (setBlock o s).blk0 = o.1 := rfl
@[simp] theorem setBlock_blk1 (o : Word × Word) (s : State) : (setBlock o s).blk1 = o.2 := rfl
@[simp] theorem setBlock_src (o : Word × Word) (s : State) : (setBlock o s).src = s.src := rfl
@[simp] theorem setBlock_dst (o : Word × Word) (s : State) : (setBlock o s).dst = s.dst := rfl
@[simp] theorem setBlock_len (o : Word × Word) (s : State) : (setBlock o s).len = s.len := rfl
@[simp] theorem setBlock_opa (o : Word × Word) (s : State) : (setBlock o s).opa = s.opa := rfl
@[simp] theorem setBlock_res (o : Word × Word) (s : State) : (setBlock o s).res = s.res := rfl
@[simp] theorem setBlock_rk (o : Word × Word) (s : State) : (setBlock o s).rk = s.rk := rfl
@[simp] theorem setBlock_kvalid (o : Word × Word) (s : State) : (setBlock o s).kvalid = s.kvalid := rfl
@[simp] theorem setBlock_dir (o : Word × Word) (s : State) : (setBlock o s).dir = s.dir := rfl
@[simp] theorem setBlock_err (o : Word × Word) (s : State) : (setBlock o s).err = s.err := rfl
@[simp] theorem setBlock_nblk (o : Word × Word) (s : State) : (setBlock o s).nblk = s.nblk := rfl
@[simp] theorem setBlock_seq (o : Word × Word) (s : State) : (setBlock o s).seq = s.seq.afterBlock o.1 o.2 := rfl
@[simp] theorem setBlock_mem (o : Word × Word) (s : State) : (setBlock o s).mem = s.mem := rfl
@[simp] theorem setBlock_absent (o : Word × Word) (s : State) : (setBlock o s).absent = s.absent := rfl
@[simp] theorem setBlock_script (o : Word × Word) (s : State) : (setBlock o s).script = s.script := rfl
@[simp] theorem setBlock_observed (o : Word × Word) (s : State) : (setBlock o s).observed = s.observed := rfl
@[simp] theorem setBlock_hung (o : Word × Word) (s : State) : (setBlock o s).hung = s.hung := rfl
@[simp] theorem setBlock_freeCount (o : Word × Word) (s : State) : (setBlock o s).freeCount = s.freeCount := rfl

@[simp] theorem setNblk_key0 (n : Word) (s : State) : (setNblk n s).key0 = s.key0 := rfl
@[simp] theorem setNblk_key1 (n : Word) (s : State) : (setNblk n s).key1 = s.key1 := rfl
@[simp] theorem setNblk_blk0 (n : Word) (s : State) : (setNblk n s).blk0 = s.blk0 := rfl
@[simp] theorem setNblk_blk1 (n : Word) (s : State) : (setNblk n s).blk1 = s.blk1 := rfl
@[simp] theorem setNblk_src (n : Word) (s : State) : (setNblk n s).src = s.src := rfl
@[simp] theorem setNblk_dst (n : Word) (s : State) : (setNblk n s).dst = s.dst := rfl
@[simp] theorem setNblk_len (n : Word) (s : State) : (setNblk n s).len = s.len := rfl
@[simp] theorem setNblk_opa (n : Word) (s : State) : (setNblk n s).opa = s.opa := rfl
@[simp] theorem setNblk_res (n : Word) (s : State) : (setNblk n s).res = s.res := rfl
@[simp] theorem setNblk_rk (n : Word) (s : State) : (setNblk n s).rk = s.rk := rfl
@[simp] theorem setNblk_kvalid (n : Word) (s : State) : (setNblk n s).kvalid = s.kvalid := rfl
@[simp] theorem setNblk_dir (n : Word) (s : State) : (setNblk n s).dir = s.dir := rfl
@[simp] theorem setNblk_err (n : Word) (s : State) : (setNblk n s).err = s.err := rfl
@[simp] theorem setNblk_nblk (n : Word) (s : State) : (setNblk n s).nblk = n := rfl
@[simp] theorem setNblk_seq (n : Word) (s : State) : (setNblk n s).seq = s.seq := rfl
@[simp] theorem setNblk_mem (n : Word) (s : State) : (setNblk n s).mem = s.mem := rfl
@[simp] theorem setNblk_absent (n : Word) (s : State) : (setNblk n s).absent = s.absent := rfl
@[simp] theorem setNblk_script (n : Word) (s : State) : (setNblk n s).script = s.script := rfl
@[simp] theorem setNblk_observed (n : Word) (s : State) : (setNblk n s).observed = s.observed := rfl
@[simp] theorem setNblk_hung (n : Word) (s : State) : (setNblk n s).hung = s.hung := rfl
@[simp] theorem setNblk_freeCount (n : Word) (s : State) : (setNblk n s).freeCount = s.freeCount := rfl

@[simp] theorem raise_key0 (c : ErrCode) (s : State) : (raise c s).key0 = s.key0 := rfl
@[simp] theorem raise_key1 (c : ErrCode) (s : State) : (raise c s).key1 = s.key1 := rfl
@[simp] theorem raise_blk0 (c : ErrCode) (s : State) : (raise c s).blk0 = s.blk0 := rfl
@[simp] theorem raise_blk1 (c : ErrCode) (s : State) : (raise c s).blk1 = s.blk1 := rfl
@[simp] theorem raise_src (c : ErrCode) (s : State) : (raise c s).src = s.src := rfl
@[simp] theorem raise_dst (c : ErrCode) (s : State) : (raise c s).dst = s.dst := rfl
@[simp] theorem raise_len (c : ErrCode) (s : State) : (raise c s).len = s.len := rfl
@[simp] theorem raise_opa (c : ErrCode) (s : State) : (raise c s).opa = s.opa := rfl
@[simp] theorem raise_res (c : ErrCode) (s : State) : (raise c s).res = s.res := rfl
@[simp] theorem raise_rk (c : ErrCode) (s : State) : (raise c s).rk = s.rk := rfl
@[simp] theorem raise_kvalid (c : ErrCode) (s : State) : (raise c s).kvalid = s.kvalid := rfl
@[simp] theorem raise_dir (c : ErrCode) (s : State) : (raise c s).dir = s.dir := rfl
@[simp] theorem raise_err (c : ErrCode) (s : State) : (raise c s).err = if s.err = .noError then c else s.err := rfl
@[simp] theorem raise_nblk (c : ErrCode) (s : State) : (raise c s).nblk = s.nblk := rfl
@[simp] theorem raise_seq (c : ErrCode) (s : State) : (raise c s).seq = s.seq.toIdle := rfl
@[simp] theorem raise_mem (c : ErrCode) (s : State) : (raise c s).mem = s.mem := rfl
@[simp] theorem raise_absent (c : ErrCode) (s : State) : (raise c s).absent = s.absent := rfl
@[simp] theorem raise_script (c : ErrCode) (s : State) : (raise c s).script = s.script := rfl
@[simp] theorem raise_observed (c : ErrCode) (s : State) : (raise c s).observed = s.observed := rfl
@[simp] theorem raise_hung (c : ErrCode) (s : State) : (raise c s).hung = s.hung := rfl
@[simp] theorem raise_freeCount (c : ErrCode) (s : State) : (raise c s).freeCount = s.freeCount := rfl

@[simp] theorem clearError_key0 (s : State) : (clearError s).key0 = s.key0 := rfl
@[simp] theorem clearError_key1 (s : State) : (clearError s).key1 = s.key1 := rfl
@[simp] theorem clearError_blk0 (s : State) : (clearError s).blk0 = s.blk0 := rfl
@[simp] theorem clearError_blk1 (s : State) : (clearError s).blk1 = s.blk1 := rfl
@[simp] theorem clearError_src (s : State) : (clearError s).src = s.src := rfl
@[simp] theorem clearError_dst (s : State) : (clearError s).dst = s.dst := rfl
@[simp] theorem clearError_len (s : State) : (clearError s).len = s.len := rfl
@[simp] theorem clearError_opa (s : State) : (clearError s).opa = s.opa := rfl
@[simp] theorem clearError_res (s : State) : (clearError s).res = s.res := rfl
@[simp] theorem clearError_rk (s : State) : (clearError s).rk = s.rk := rfl
@[simp] theorem clearError_kvalid (s : State) : (clearError s).kvalid = s.kvalid := rfl
@[simp] theorem clearError_dir (s : State) : (clearError s).dir = s.dir := rfl
@[simp] theorem clearError_err (s : State) : (clearError s).err = .noError := rfl
@[simp] theorem clearError_nblk (s : State) : (clearError s).nblk = s.nblk := rfl
@[simp] theorem clearError_seq (s : State) : (clearError s).seq = s.seq := rfl
@[simp] theorem clearError_mem (s : State) : (clearError s).mem = s.mem := rfl
@[simp] theorem clearError_absent (s : State) : (clearError s).absent = s.absent := rfl
@[simp] theorem clearError_script (s : State) : (clearError s).script = s.script := rfl
@[simp] theorem clearError_observed (s : State) : (clearError s).observed = s.observed := rfl
@[simp] theorem clearError_hung (s : State) : (clearError s).hung = s.hung := rfl
@[simp] theorem clearError_freeCount (s : State) : (clearError s).freeCount = s.freeCount := rfl

@[simp] theorem enterBlocks_key0 (s : State) : (enterBlocks s).key0 = s.key0 := rfl
@[simp] theorem enterBlocks_key1 (s : State) : (enterBlocks s).key1 = s.key1 := rfl
@[simp] theorem enterBlocks_blk0 (s : State) : (enterBlocks s).blk0 = s.blk0 := rfl
@[simp] theorem enterBlocks_blk1 (s : State) : (enterBlocks s).blk1 = s.blk1 := rfl
@[simp] theorem enterBlocks_src (s : State) : (enterBlocks s).src = s.src := rfl
@[simp] theorem enterBlocks_dst (s : State) : (enterBlocks s).dst = s.dst := rfl
@[simp] theorem enterBlocks_len (s : State) : (enterBlocks s).len = s.len := rfl
@[simp] theorem enterBlocks_opa (s : State) : (enterBlocks s).opa = s.opa := rfl
@[simp] theorem enterBlocks_res (s : State) : (enterBlocks s).res = s.res := rfl
@[simp] theorem enterBlocks_rk (s : State) : (enterBlocks s).rk = s.rk := rfl
@[simp] theorem enterBlocks_kvalid (s : State) : (enterBlocks s).kvalid = s.kvalid := rfl
@[simp] theorem enterBlocks_dir (s : State) : (enterBlocks s).dir = s.dir := rfl
@[simp] theorem enterBlocks_err (s : State) : (enterBlocks s).err = s.err := rfl
@[simp] theorem enterBlocks_nblk (s : State) : (enterBlocks s).nblk = s.nblk := rfl
@[simp] theorem enterBlocks_seq (s : State) : (enterBlocks s).seq = { s.seq with bi := 0 } := rfl
@[simp] theorem enterBlocks_mem (s : State) : (enterBlocks s).mem = s.mem := rfl
@[simp] theorem enterBlocks_absent (s : State) : (enterBlocks s).absent = s.absent := rfl
@[simp] theorem enterBlocks_script (s : State) : (enterBlocks s).script = s.script := rfl
@[simp] theorem enterBlocks_observed (s : State) : (enterBlocks s).observed = s.observed := rfl
@[simp] theorem enterBlocks_hung (s : State) : (enterBlocks s).hung = s.hung := rfl
@[simp] theorem enterBlocks_freeCount (s : State) : (enterBlocks s).freeCount = s.freeCount := rfl

@[simp] theorem enterPhase_key0 (p : Phase) (s : State) : (enterPhase p s).key0 = s.key0 := rfl
@[simp] theorem enterPhase_key1 (p : Phase) (s : State) : (enterPhase p s).key1 = s.key1 := rfl
@[simp] theorem enterPhase_blk0 (p : Phase) (s : State) : (enterPhase p s).blk0 = s.blk0 := rfl
@[simp] theorem enterPhase_blk1 (p : Phase) (s : State) : (enterPhase p s).blk1 = s.blk1 := rfl
@[simp] theorem enterPhase_src (p : Phase) (s : State) : (enterPhase p s).src = s.src := rfl
@[simp] theorem enterPhase_dst (p : Phase) (s : State) : (enterPhase p s).dst = s.dst := rfl
@[simp] theorem enterPhase_len (p : Phase) (s : State) : (enterPhase p s).len = s.len := rfl
@[simp] theorem enterPhase_opa (p : Phase) (s : State) : (enterPhase p s).opa = s.opa := rfl
@[simp] theorem enterPhase_res (p : Phase) (s : State) : (enterPhase p s).res = s.res := rfl
@[simp] theorem enterPhase_rk (p : Phase) (s : State) : (enterPhase p s).rk = s.rk := rfl
@[simp] theorem enterPhase_kvalid (p : Phase) (s : State) : (enterPhase p s).kvalid = s.kvalid := rfl
@[simp] theorem enterPhase_dir (p : Phase) (s : State) : (enterPhase p s).dir = s.dir := rfl
@[simp] theorem enterPhase_err (p : Phase) (s : State) : (enterPhase p s).err = s.err := rfl
@[simp] theorem enterPhase_nblk (p : Phase) (s : State) : (enterPhase p s).nblk = s.nblk := rfl
@[simp] theorem enterPhase_seq (p : Phase) (s : State) : (enterPhase p s).seq = { s.seq with phase := p } := rfl
@[simp] theorem enterPhase_mem (p : Phase) (s : State) : (enterPhase p s).mem = s.mem := rfl
@[simp] theorem enterPhase_absent (p : Phase) (s : State) : (enterPhase p s).absent = s.absent := rfl
@[simp] theorem enterPhase_script (p : Phase) (s : State) : (enterPhase p s).script = s.script := rfl
@[simp] theorem enterPhase_observed (p : Phase) (s : State) : (enterPhase p s).observed = s.observed := rfl
@[simp] theorem enterPhase_hung (p : Phase) (s : State) : (enterPhase p s).hung = s.hung := rfl
@[simp] theorem enterPhase_freeCount (p : Phase) (s : State) : (enterPhase p s).freeCount = s.freeCount := rfl

@[simp] theorem enterKeyLoop_key0 (p : Phase) (s : State) : (enterKeyLoop p s).key0 = s.key0 := rfl
@[simp] theorem enterKeyLoop_key1 (p : Phase) (s : State) : (enterKeyLoop p s).key1 = s.key1 := rfl
@[simp] theorem enterKeyLoop_blk0 (p : Phase) (s : State) : (enterKeyLoop p s).blk0 = s.blk0 := rfl
@[simp] theorem enterKeyLoop_blk1 (p : Phase) (s : State) : (enterKeyLoop p s).blk1 = s.blk1 := rfl
@[simp] theorem enterKeyLoop_src (p : Phase) (s : State) : (enterKeyLoop p s).src = s.src := rfl
@[simp] theorem enterKeyLoop_dst (p : Phase) (s : State) : (enterKeyLoop p s).dst = s.dst := rfl
@[simp] theorem enterKeyLoop_len (p : Phase) (s : State) : (enterKeyLoop p s).len = s.len := rfl
@[simp] theorem enterKeyLoop_opa (p : Phase) (s : State) : (enterKeyLoop p s).opa = s.opa := rfl
@[simp] theorem enterKeyLoop_res (p : Phase) (s : State) : (enterKeyLoop p s).res = s.res := rfl
@[simp] theorem enterKeyLoop_rk (p : Phase) (s : State) : (enterKeyLoop p s).rk = s.rk := rfl
@[simp] theorem enterKeyLoop_kvalid (p : Phase) (s : State) : (enterKeyLoop p s).kvalid = s.kvalid := rfl
@[simp] theorem enterKeyLoop_dir (p : Phase) (s : State) : (enterKeyLoop p s).dir = s.dir := rfl
@[simp] theorem enterKeyLoop_err (p : Phase) (s : State) : (enterKeyLoop p s).err = s.err := rfl
@[simp] theorem enterKeyLoop_nblk (p : Phase) (s : State) : (enterKeyLoop p s).nblk = s.nblk := rfl
@[simp] theorem enterKeyLoop_seq (p : Phase) (s : State) :
    (enterKeyLoop p s).seq = { s.seq with phase := p, ki := 0 } := rfl
@[simp] theorem enterKeyLoop_mem (p : Phase) (s : State) : (enterKeyLoop p s).mem = s.mem := rfl
@[simp] theorem enterKeyLoop_absent (p : Phase) (s : State) : (enterKeyLoop p s).absent = s.absent := rfl
@[simp] theorem enterKeyLoop_script (p : Phase) (s : State) : (enterKeyLoop p s).script = s.script := rfl
@[simp] theorem enterKeyLoop_observed (p : Phase) (s : State) : (enterKeyLoop p s).observed = s.observed := rfl
@[simp] theorem enterKeyLoop_hung (p : Phase) (s : State) : (enterKeyLoop p s).hung = s.hung := rfl
@[simp] theorem enterKeyLoop_freeCount (p : Phase) (s : State) : (enterKeyLoop p s).freeCount = s.freeCount := rfl

@[simp] theorem observe_key0 (o : Observation) (s : State) : (observe o s).key0 = s.key0 := rfl
@[simp] theorem observe_key1 (o : Observation) (s : State) : (observe o s).key1 = s.key1 := rfl
@[simp] theorem observe_blk0 (o : Observation) (s : State) : (observe o s).blk0 = s.blk0 := rfl
@[simp] theorem observe_blk1 (o : Observation) (s : State) : (observe o s).blk1 = s.blk1 := rfl
@[simp] theorem observe_src (o : Observation) (s : State) : (observe o s).src = s.src := rfl
@[simp] theorem observe_dst (o : Observation) (s : State) : (observe o s).dst = s.dst := rfl
@[simp] theorem observe_len (o : Observation) (s : State) : (observe o s).len = s.len := rfl
@[simp] theorem observe_opa (o : Observation) (s : State) : (observe o s).opa = s.opa := rfl
@[simp] theorem observe_res (o : Observation) (s : State) : (observe o s).res = s.res := rfl
@[simp] theorem observe_rk (o : Observation) (s : State) : (observe o s).rk = s.rk := rfl
@[simp] theorem observe_kvalid (o : Observation) (s : State) : (observe o s).kvalid = s.kvalid := rfl
@[simp] theorem observe_dir (o : Observation) (s : State) : (observe o s).dir = s.dir := rfl
@[simp] theorem observe_err (o : Observation) (s : State) : (observe o s).err = s.err := rfl
@[simp] theorem observe_nblk (o : Observation) (s : State) : (observe o s).nblk = s.nblk := rfl
@[simp] theorem observe_seq (o : Observation) (s : State) : (observe o s).seq = s.seq := rfl
@[simp] theorem observe_mem (o : Observation) (s : State) : (observe o s).mem = s.mem := rfl
@[simp] theorem observe_absent (o : Observation) (s : State) : (observe o s).absent = s.absent := rfl
@[simp] theorem observe_script (o : Observation) (s : State) : (observe o s).script = s.script := rfl
@[simp] theorem observe_observed (o : Observation) (s : State) : (observe o s).observed = o :: s.observed := rfl
@[simp] theorem observe_hung (o : Observation) (s : State) : (observe o s).hung = s.hung := rfl
@[simp] theorem observe_freeCount (o : Observation) (s : State) : (observe o s).freeCount = s.freeCount := rfl

@[simp] theorem applyReset_kvalid (s : State) : (applyReset s).kvalid = false := rfl
@[simp] theorem applyReset_dir (s : State) : (applyReset s).dir = false := rfl
@[simp] theorem applyReset_err (s : State) : (applyReset s).err = .noError := rfl
@[simp] theorem applyReset_nblk (s : State) : (applyReset s).nblk = 0 := rfl
@[simp] theorem applyReset_mem (s : State) : (applyReset s).mem = s.mem := rfl
@[simp] theorem applyReset_absent (s : State) : (applyReset s).absent = s.absent := rfl
@[simp] theorem applyReset_script (s : State) : (applyReset s).script = s.script := rfl
@[simp] theorem applyReset_observed (s : State) : (applyReset s).observed = s.observed := rfl
@[simp] theorem applyReset_hung (s : State) : (applyReset s).hung = s.hung := rfl
@[simp] theorem applyReset_phase (s : State) : (applyReset s).seq.phase = .idle := rfl

@[simp] theorem ecbBlock_key0 (s : State) (i : Nat) :
    (ecbBlock s i).key0 = s.key0 := rfl
@[simp] theorem ecbBlock_key1 (s : State) (i : Nat) :
    (ecbBlock s i).key1 = s.key1 := rfl
@[simp] theorem ecbBlock_blk0 (s : State) (i : Nat) :
    (ecbBlock s i).blk0 = s.blk0 := rfl
@[simp] theorem ecbBlock_blk1 (s : State) (i : Nat) :
    (ecbBlock s i).blk1 = s.blk1 := rfl
@[simp] theorem ecbBlock_src (s : State) (i : Nat) :
    (ecbBlock s i).src = s.src := rfl
@[simp] theorem ecbBlock_dst (s : State) (i : Nat) :
    (ecbBlock s i).dst = s.dst := rfl
@[simp] theorem ecbBlock_len (s : State) (i : Nat) :
    (ecbBlock s i).len = s.len := rfl
@[simp] theorem ecbBlock_opa (s : State) (i : Nat) :
    (ecbBlock s i).opa = s.opa := rfl
@[simp] theorem ecbBlock_res (s : State) (i : Nat) :
    (ecbBlock s i).res = s.res := rfl
@[simp] theorem ecbBlock_rk (s : State) (i : Nat) :
    (ecbBlock s i).rk = s.rk := rfl
@[simp] theorem ecbBlock_kvalid (s : State) (i : Nat) :
    (ecbBlock s i).kvalid = s.kvalid := rfl
@[simp] theorem ecbBlock_dir (s : State) (i : Nat) :
    (ecbBlock s i).dir = s.dir := rfl
@[simp] theorem ecbBlock_err (s : State) (i : Nat) :
    (ecbBlock s i).err = s.err := rfl
@[simp] theorem ecbBlock_nblk (s : State) (i : Nat) :
    (ecbBlock s i).nblk = s.nblk := rfl
@[simp] theorem ecbBlock_mem (s : State) (i : Nat) :
    (ecbBlock s i).mem = writeBlock s.mem (blockTarget s i) (transformBlock s.rk (readBlock s.mem (blockSource s i))) := rfl
@[simp] theorem ecbBlock_absent (s : State) (i : Nat) :
    (ecbBlock s i).absent = s.absent := rfl
@[simp] theorem ecbBlock_script (s : State) (i : Nat) :
    (ecbBlock s i).script = s.script := rfl
@[simp] theorem ecbBlock_observed (s : State) (i : Nat) :
    (ecbBlock s i).observed = s.observed := rfl
@[simp] theorem ecbBlock_hung (s : State) (i : Nat) :
    (ecbBlock s i).hung = s.hung := rfl
@[simp] theorem ecbBlock_freeCount (s : State) (i : Nat) :
    (ecbBlock s i).freeCount = s.freeCount := rfl
@[simp] theorem ecbBlock_phase (s : State) (i : Nat) : (ecbBlock s i).seq.phase = s.seq.phase := rfl

@[simp] theorem Sequencer.toIdle_phase (q : Sequencer) : (q.toIdle).phase = .idle := rfl
@[simp] theorem Sequencer.toIdle_ki (q : Sequencer) : (q.toIdle).ki = q.ki := rfl
@[simp] theorem Sequencer.toIdle_rc (q : Sequencer) : (q.toIdle).rc = q.rc := rfl
@[simp] theorem Sequencer.toIdle_bi (q : Sequencer) : (q.toIdle).bi = q.bi := rfl
@[simp] theorem Sequencer.toIdle_x (q : Sequencer) : (q.toIdle).x = q.x := rfl
@[simp] theorem Sequencer.toIdle_y (q : Sequencer) : (q.toIdle).y = q.y := rfl
@[simp] theorem Sequencer.afterBlock_phase (q : Sequencer) (x y : Word) : (q.afterBlock x y).phase = q.phase := rfl
@[simp] theorem Sequencer.afterBlock_ki (q : Sequencer) (x y : Word) : (q.afterBlock x y).ki = q.ki := rfl
@[simp] theorem Sequencer.afterBlock_rc (q : Sequencer) (x y : Word) : (q.afterBlock x y).rc = 54 := rfl
@[simp] theorem Sequencer.afterBlock_bi (q : Sequencer) (x y : Word) : (q.afterBlock x y).bi = q.bi := rfl
@[simp] theorem Sequencer.afterBlock_x (q : Sequencer) (x y : Word) : (q.afterBlock x y).x = x := rfl
@[simp] theorem Sequencer.afterBlock_y (q : Sequencer) (x y : Word) : (q.afterBlock x y).y = y := rfl

/-- A sequencer that waits already is left as it is. -/
theorem Sequencer.toIdle_of_idle (q : Sequencer) (h : q.phase = .idle) : q.toIdle = q := by
  cases q
  simp_all [Sequencer.toIdle]

end Sys2Proof.Machine
end

