-- ==== Sys2Proof/Laws/Commands.lean ====
section
/-! SUPPORT. What each shared operation of a command can do, said once: fail-stop, raising, the step, and the loops
of the schedule and of `ECB` taken one iteration at a time. -/

namespace Sys2Proof.Machine

/-- With no error recorded a command has its effect. -/
theorem command_clear {s : State} (h : s.err = .noError) (f : State → State) : command s f = .next (f s) := by
  simp [command, h]

/-- With an error recorded a command other than `CLRERR` does nothing. -/
theorem command_stopped {s : State} (h : s.err ≠ .noError) (f : State → State) : command s f = .next s := by
  simp [command, h]

/-- Everything a command can do. -/
theorem command_cases {s t : State} {f : State → State} (h : command s f = .next t) :
    (s.err = .noError ∧ t = f s) ∨ (s.err ≠ .noError ∧ t = s) := by
  by_cases he : s.err = .noError
  · rw [command_clear he] at h
    injection h with h
    exact .inl ⟨he, h.symm⟩
  · rw [command_stopped he] at h
    injection h with h
    exact .inr ⟨he, h.symm⟩

/-- Raising where no error is recorded records the code. -/
theorem raise_clear {s : State} (h : s.err = .noError) (c : ErrCode) :
    raise c s = { s with err := c, seq := s.seq.toIdle } := by
  simp [raise, h]

/-- A sequencer that waits is not moved by entering `IDLE`. -/
theorem enterPhase_idle {s : State} (h : s.seq.phase = .idle) : enterPhase .idle s = s := by
  obtain ⟨_, _, _, _, _, _, _, _, _, _, _, _, _, _, ⟨_, _, _, _, _, _⟩, _, _, _, _, _, _⟩ := s
  simp_all [enterPhase]

/-- Everything a step can do when it answers a next state. -/
theorem step_cases {s t : State} (h : step s = .next t) :
    s.hung = false ∧
      ((s.script = [] ∧ t = s) ∨
        ∃ e rest, s.script = e :: rest ∧ perform e { s with script := rest } = .next t) := by
  unfold step at h
  split at h
  · cases h
  · rename_i hh
    refine ⟨by simpa using hh, ?_⟩
    split at h
    · rename_i hs
      injection h with h
      exact .inl ⟨hs, h.symm⟩
    · rename_i e rest hs
      exact .inr ⟨e, rest, hs, h⟩

/-- A step with an event to perform. -/
theorem step_perform {s : State} {e : Event} {rest : List Event} (hh : s.hung = false) (hs : s.script = e :: rest) :
    step s = perform e { s with script := rest } := by
  simp [step, hh, hs]

/-- Every event but the host's own memory accesses answers a next state: what a command write does. -/
theorem runCommand_cases (v : Word) (s : State) :
    (∃ i, decode v = .ok i ∧ runCommand v s = exec i s)
      ∨ (∃ r, decode v = .error r ∧ runCommand v s = illegalCommand s) := by
  unfold runCommand
  cases h : decode v with
  | ok i => exact .inl ⟨i, rfl, rfl⟩
  | error r => exact .inr ⟨r, rfl, rfl⟩

/-- The block loop, its last block set apart. -/
theorem ecbBlocks_succ (s : State) (n : Nat) :
    (List.range (n + 1)).foldl ecbBlock s = ecbBlock ((List.range n).foldl ecbBlock s) n := by
  simp [List.range_succ]

/-- The block loop changes the memory and the hidden state, and nothing else. -/
theorem ecbBlocks_frame (s : State) (n : Nat) :
    (List.range n).foldl ecbBlock s =
      { s with
        mem := ((List.range n).foldl ecbBlock s).mem
        seq := ((List.range n).foldl ecbBlock s).seq } := by
  induction n with
  | zero => rfl
  | succ n ih => rw [ecbBlocks_succ, ih]; rfl

/-- When the checks of `ECB` pass it processes its blocks. -/
theorem ecbEffect_run {s : State} (h : ecbError s = .noError) : ecbEffect s = ecbProcess (setNblk 0 s) := by
  simp [ecbEffect, h]

/-- When a check of `ECB` fails it raises that check's error. -/
theorem ecbEffect_raise {s : State} (h : ecbError s ≠ .noError) : ecbEffect s = raise (ecbError s) (setNblk 0 s) := by
  unfold ecbEffect
  cases hc : ecbError s <;> simp_all

/-- Everything the host's placing of a byte can do. -/
theorem placeByte_cases (a : Word) (b : Byte) (s : State) :
    (memPresent s.absent a.toNat = true ∧ placeByte a b s = .next { s with mem := writeByte s.mem a.toNat b })
      ∨ (memPresent s.absent a.toNat = false ∧ placeByte a b s = .fault (.absentByte a)) := by
  unfold placeByte
  cases memPresent s.absent a.toNat <;> simp

/-- Everything the host's reading of a byte can do. -/
theorem inspectByte_cases (a : Word) (s : State) :
    (memPresent s.absent a.toNat = true
        ∧ inspectByte a s = .next (observe (.byte a (readByte s.mem a.toNat)) s))
      ∨ (memPresent s.absent a.toNat = false ∧ inspectByte a s = .fault (.absentByte a)) := by
  unfold inspectByte
  cases memPresent s.absent a.toNat <;> simp

/-- Everything a host register write can do. -/
theorem writeRegister_cases (n : BitVec 8) (v : Word) (s : State) :
    (regOf n = some .cmd ∧ writeRegister n v s = runCommand v s)
      ∨ (∃ r, regOf n = some r ∧ r ≠ .cmd ∧ writeRegister n v s = .next (setRegister r v s))
      ∨ (regOf n = none ∧ writeRegister n v s = .next s) := by
  unfold writeRegister
  cases h : regOf n with
  | none => simp
  | some r => cases r <;> simp

/-- A transform with one more key. -/
theorem transformWith_append (keys : List Word) (k : Word) (b : Word × Word) :
    (keys ++ [k]).foldl cipherRound b = cipherRound (keys.foldl cipherRound b) k := by
  simp

/-- The sequencer's iterations add up. -/
theorem ticks_add (i : Instr) (m n : Nat) (s : State) : ticks i (m + n) s = ticks i n (ticks i m s) := by
  induction m generalizing s with
  | zero => simp [ticks]
  | succ m ih => rw [Nat.succ_add]; exact ih (tick i s)

/-- A sequencer that waits stays. -/
theorem ticks_idle (i : Instr) (n : Nat) {s : State} (h : s.seq.phase = .idle) : ticks i n s = s := by
  induction n with
  | zero => rfl
  | succ n ih => simpa [ticks, tick, h] using ih

end Sys2Proof.Machine
end

