-- ==== Sys2Proof/Laws/Memory.lean ====
section
/-! SUPPORT. The laws of buffer memory, byte by byte: a read after a write, the canonical form kept by every memory
operation, and equal contents being equal data. -/

namespace Sys2Proof.Machine

theorem memoryWfFrom_cons (low a : Nat) (w : Byte) (rest : Memory) :
    memoryWfFrom low ((a, w) :: rest) = true
      ↔ low ≤ a ∧ a < Config.addressEnd ∧ w ≠ unlistedByte ∧ memoryWfFrom (a + 1) rest = true := by
  simp [memoryWfFrom, and_assoc]

theorem memoryWfFrom_mono {low low' : Nat} (h : low' ≤ low) {m : Memory} (hm : memoryWfFrom low m = true) :
    memoryWfFrom low' m = true := by
  cases m with
  | nil => rfl
  | cons c rest =>
    obtain ⟨a, w⟩ := c
    rw [memoryWfFrom_cons] at hm ⊢
    exact ⟨by omega, hm.2⟩

/-- Below its first address a memory lists nothing. -/
theorem readByte_below {low a : Nat} {m : Memory} (hm : memoryWfFrom low m = true) (h : a < low) :
    readByte m a = unlistedByte := by
  induction m generalizing low with
  | nil => rfl
  | cons c rest ih =>
    obtain ⟨b, w⟩ := c
    rw [memoryWfFrom_cons] at hm
    have hne : a ≠ b := by omega
    simp only [readByte, hne, if_false]
    exact ih hm.2.2.2 (by omega)

theorem readByte_putCell (m : Memory) (a b : Nat) (w : Byte) :
    readByte (putCell m a w) b = if b = a then w else readByte m b := by
  induction m with
  | nil => simp [putCell, readByte]
  | cons c rest ih =>
    obtain ⟨d, v⟩ := c
    by_cases h1 : a = d
    · subst h1
      by_cases h2 : b = a <;> simp [putCell, readByte, h2]
    · by_cases h3 : a < d
      · simp [putCell, readByte, h1, h3]
      · by_cases h2 : b = a
        · subst h2
          simp [putCell, readByte, h1, h3, ih]
        · simp [putCell, readByte, h1, h3, ih, h2]

/-- Dropping an address leaves every other address as it was, whatever the list. -/
theorem readByte_dropCell_ne (m : Memory) {a b : Nat} (h : b ≠ a) : readByte (dropCell m a) b = readByte m b := by
  induction m with
  | nil => rfl
  | cons c rest ih =>
    obtain ⟨d, v⟩ := c
    by_cases h1 : a = d
    · subst h1
      simp [dropCell, readByte, h]
    · by_cases h3 : a < d <;> simp [dropCell, readByte, h1, h3, ih]

theorem readByte_dropCell_self {low : Nat} {m : Memory} (hm : memoryWfFrom low m = true) (a : Nat) :
    readByte (dropCell m a) a = unlistedByte := by
  induction m generalizing low with
  | nil => rfl
  | cons c rest ih =>
    obtain ⟨d, v⟩ := c
    rw [memoryWfFrom_cons] at hm
    by_cases h1 : a = d
    · subst h1
      simpa [dropCell] using readByte_below hm.2.2.2 (Nat.lt_succ_self a)
    · by_cases h3 : a < d
      · simpa [dropCell, readByte, h1, h3] using readByte_below hm.2.2.2 (by omega)
      · simpa [dropCell, readByte, h1, h3] using ih hm.2.2.2

/-- A write leaves every other byte alone; no premise on the memory. -/
theorem readByte_writeByte_ne (m : Memory) {a b : Nat} (w : Byte) (h : b ≠ a) :
    readByte (writeByte m a w) b = readByte m b := by
  unfold writeByte
  split
  · exact readByte_dropCell_ne m h
  · simp [readByte_putCell, h]

/-- A byte written reads back. -/
theorem readByte_writeByte_self {m : Memory} (hm : Memory.wf m = true) (a : Nat) (w : Byte) :
    readByte (writeByte m a w) a = w := by
  unfold writeByte
  split
  · rename_i h
    rw [readByte_dropCell_self hm, h]
  · simp [readByte_putCell]

theorem dropCell_wfFrom {low : Nat} {m : Memory} (hm : memoryWfFrom low m = true) (a : Nat) :
    memoryWfFrom low (dropCell m a) = true := by
  induction m generalizing low with
  | nil => rfl
  | cons c rest ih =>
    obtain ⟨d, v⟩ := c
    have hm' := (memoryWfFrom_cons ..).1 hm
    by_cases h1 : a = d
    · simpa [dropCell, h1] using memoryWfFrom_mono (by omega) hm'.2.2.2
    · by_cases h3 : a < d
      · simpa [dropCell, h1, h3] using hm
      · simp only [dropCell, h1, h3, if_false]
        exact (memoryWfFrom_cons ..).2 ⟨hm'.1, hm'.2.1, hm'.2.2.1, ih hm'.2.2.2⟩

theorem putCell_wfFrom {low a : Nat} {m : Memory} {w : Byte} (hm : memoryWfFrom low m = true) (hlow : low ≤ a)
    (ha : a < Config.addressEnd) (hw : w ≠ unlistedByte) : memoryWfFrom low (putCell m a w) = true := by
  induction m generalizing low with
  | nil => exact (memoryWfFrom_cons ..).2 ⟨hlow, ha, hw, rfl⟩
  | cons c rest ih =>
    obtain ⟨d, v⟩ := c
    have hm' := (memoryWfFrom_cons ..).1 hm
    by_cases h1 : a = d
    · subst h1
      simp only [putCell, if_true]
      exact (memoryWfFrom_cons ..).2 ⟨hlow, ha, hw, hm'.2.2.2⟩
    · by_cases h3 : a < d
      · simp only [putCell, h1, h3, if_false, if_true]
        exact (memoryWfFrom_cons ..).2 ⟨hlow, ha, hw, (memoryWfFrom_cons ..).2 ⟨by omega, hm'.2⟩⟩
      · simp only [putCell, h1, h3, if_false]
        exact (memoryWfFrom_cons ..).2 ⟨hm'.1, hm'.2.1, hm'.2.2.1, ih hm'.2.2.2 (by omega)⟩

/-- Writing a byte keeps the canonical form. -/
theorem writeByte_wf {m : Memory} (hm : Memory.wf m = true) {a : Nat} (ha : a < Config.addressEnd) (w : Byte) :
    Memory.wf (writeByte m a w) = true := by
  unfold writeByte Memory.wf
  split
  · exact dropCell_wfFrom hm a
  · rename_i h
    exact putCell_wfFrom hm (Nat.zero_le a) ha h

/-- Writing a Word keeps the canonical form. -/
theorem writeWord_wf {m : Memory} (hm : Memory.wf m = true) {a : Nat} (ha : a + 8 ≤ Config.addressEnd) (w : Word) :
    Memory.wf (writeWord m a w) = true := by
  unfold writeWord
  refine List.foldlRecOn (motive := fun m => Memory.wf m = true) (List.range 8) _ hm fun m' hm' k hk => ?_
  exact writeByte_wf hm' (by have := List.mem_range.1 hk; omega) _

/-- Writing a block keeps the canonical form. -/
theorem writeBlock_wf {m : Memory} (hm : Memory.wf m = true) {a : Nat} (ha : a + 16 ≤ Config.addressEnd)
    (o : Word × Word) : Memory.wf (writeBlock m a o) = true :=
  writeWord_wf (writeWord_wf hm (by omega) _) (by omega) _

/-- The memory of the machine right after reset has the canonical form. -/
theorem reset_memory_wf : Memory.wf State.reset.mem = true := rfl

/-- Two memories in canonical form that read alike at every address are the same data. -/
theorem memory_ext_from {low : Nat} {m m' : Memory} (hm : memoryWfFrom low m = true)
    (hm' : memoryWfFrom low m' = true) (h : ∀ a, readByte m a = readByte m' a) : m = m' := by
  induction m generalizing low m' with
  | nil =>
    cases m' with
    | nil => rfl
    | cons c rest =>
      obtain ⟨a, w⟩ := c
      have hc := (memoryWfFrom_cons ..).1 hm'
      exact absurd (by simpa [readByte] using (h a).symm) hc.2.2.1
  | cons c rest ih =>
    obtain ⟨a, w⟩ := c
    have hc := (memoryWfFrom_cons ..).1 hm
    cases m' with
    | nil => exact absurd (by simpa [readByte] using h a) hc.2.2.1
    | cons c' rest' =>
      obtain ⟨a', w'⟩ := c'
      have hc' := (memoryWfFrom_cons ..).1 hm'
      have haa : a = a' := by
        rcases Nat.lt_trichotomy a a' with hlt | heq | hgt
        · exact absurd (by
            have := h a
            rwa [readByte_below (low := a') ((memoryWfFrom_cons ..).2 ⟨le_rfl, hc'.2⟩) hlt, readByte, if_pos rfl] at this)
            hc.2.2.1
        · exact heq
        · exact absurd (by
            have := (h a').symm
            rwa [readByte_below (low := a) ((memoryWfFrom_cons ..).2 ⟨le_rfl, hc.2⟩) hgt, readByte, if_pos rfl] at this)
            hc'.2.2.1
      subst haa
      have hww : w = w' := by simpa [readByte] using h a
      subst hww
      congr 1
      refine ih hc.2.2.2 hc'.2.2.2 fun b => ?_
      by_cases hb : b = a
      · subst hb
        rw [readByte_below hc.2.2.2 (Nat.lt_succ_self b), readByte_below hc'.2.2.2 (Nat.lt_succ_self b)]
      · simpa [readByte, hb] using h b

theorem memory_ext {m m' : Memory} (hm : Memory.wf m = true) (hm' : Memory.wf m' = true)
    (h : ∀ a, readByte m a = readByte m' a) : m = m' := memory_ext_from hm hm' h

end Sys2Proof.Machine
end

