-- ==== Sys2Proof/Laws/PerInstr.lean ====
section
/-! SUPPORT. A statement for every command, one lemma per constructor. -/

namespace Sys2Proof.Laws

/-- The word a command encodes to selects the command's row of the opcode map and has zeros in bits 63:14
(30_encoding.md R50, R52). -/
def EncodesItsRow.Statement (i : Instr) : Prop := (rowOf i).selects (encode i) = true ∧ fieldZero (encode i) = 0

theorem EncodesItsRow.nop : EncodesItsRow.Statement .nop := by unfold EncodesItsRow.Statement; decide
theorem EncodesItsRow.kexpE : EncodesItsRow.Statement .kexpE := by unfold EncodesItsRow.Statement; decide
theorem EncodesItsRow.kexpD : EncodesItsRow.Statement .kexpD := by unfold EncodesItsRow.Statement; decide
theorem EncodesItsRow.krev : EncodesItsRow.Statement .krev := by unfold EncodesItsRow.Statement; decide
theorem EncodesItsRow.blk : EncodesItsRow.Statement .blk := by unfold EncodesItsRow.Statement; decide
theorem EncodesItsRow.ecb : EncodesItsRow.Statement .ecb := by unfold EncodesItsRow.Statement; decide
theorem EncodesItsRow.clrerr : EncodesItsRow.Statement .clrerr := by unfold EncodesItsRow.Statement; decide
theorem EncodesItsRow.rotl (amount : BitVec 6) : EncodesItsRow.Statement (.rotl amount) := by
  unfold EncodesItsRow.Statement
  revert amount
  decide +kernel
theorem EncodesItsRow.perm : EncodesItsRow.Statement .perm := by unfold EncodesItsRow.Statement; decide
theorem EncodesItsRow.g0 : EncodesItsRow.Statement .g0 := by unfold EncodesItsRow.Statement; decide
theorem EncodesItsRow.g1 : EncodesItsRow.Statement .g1 := by unfold EncodesItsRow.Statement; decide
theorem EncodesItsRow.a16x3 : EncodesItsRow.Statement .a16x3 := by unfold EncodesItsRow.Statement; decide
theorem EncodesItsRow.frnd : EncodesItsRow.Statement .frnd := by unfold EncodesItsRow.Statement; decide

end Sys2Proof.Laws
end

