-- ==== Sys2Proof/Tests/Slice0.lean ====
section
/-! SUPPORT. The model's own tests: words written out from the encoding, the well-formedness smoke test, one step at a
time against the spec's vectors (95_test_vectors.md), and for each statement with premises a state that meets them. -/

namespace Sys2Proof.Tests

open Sys2Proof.Machine

/-! ## Helpers -/

/-- A field of the next state, if there is one. -/
def field {α : Type} (f : State → α) : Result → Option α
  | .next t => some (f t)
  | .fault _ => none
  | .refused _ => none

/-- One step that runs the command word `w`. -/
def runWord (s : State) (w : Nat) : Result := step (s.withFetchWord 64 w)

/-- The machine after reset with `OPA` written. -/
def withOpa (v : Word) : State := { State.reset with opa := v }

/-- The machine after reset with the key of scenario S1 (95_test_vectors.md S1). -/
def withKey : State := { State.reset with key0 := 0xa6d2ae2816157e2b, key1 := 0x3c4fcf098815f7ab }

/-- A schedule in place for the zero key and Buffers of one block, that touch: `DST = SRC + LEN`. -/
def ready : State :=
  { State.reset with rk := keySchedule 0 0, kvalid := true, src := 0x1000, dst := 0x1010, len := 16 }

/-- An error recorded. -/
def stopped : State := { ready with err := .badLen }

/-- One event to come. -/
def facing (s : State) (e : Event) : State := { s with script := [e] }

/-! ## Decoding: words written bit by bit from 30_encoding.md R50 and R52 -/

theorem test_decode_nop : decode 0b00000000000000000000000000000000000000000000000000_000000_00000000 = .ok .nop := by decide
theorem test_decode_kexpE : decode 0b00000000000000000000000000000000000000000000000000_000000_00000001 = .ok .kexpE := by decide
theorem test_decode_kexpD : decode 0b00000000000000000000000000000000000000000000000000_000000_00000010 = .ok .kexpD := by decide
theorem test_decode_krev : decode 0b00000000000000000000000000000000000000000000000000_000000_00000011 = .ok .krev := by decide
theorem test_decode_blk : decode 0b00000000000000000000000000000000000000000000000000_000000_00000100 = .ok .blk := by decide
theorem test_decode_ecb : decode 0b00000000000000000000000000000000000000000000000000_000000_00000101 = .ok .ecb := by decide
theorem test_decode_clrerr : decode 0b00000000000000000000000000000000000000000000000000_000000_00000110 = .ok .clrerr := by decide
theorem test_decode_rotl : decode 0b00000000000000000000000000000000000000000000000000_100101_00010000 = .ok (.rotl 37) := by decide
theorem test_decode_perm : decode 0b00000000000000000000000000000000000000000000000000_000000_00010001 = .ok .perm := by decide
theorem test_decode_g0 : decode 0b00000000000000000000000000000000000000000000000000_000000_00010010 = .ok .g0 := by decide
theorem test_decode_g1 : decode 0b00000000000000000000000000000000000000000000000000_000000_00010011 = .ok .g1 := by decide
theorem test_decode_a16x3 : decode 0b00000000000000000000000000000000000000000000000000_000000_00010100 = .ok .a16x3 := by decide
theorem test_decode_frnd : decode 0b00000000000000000000000000000000000000000000000000_000000_00010101 = .ok .frnd := by decide

/-- 95_test_vectors.md V15, the illegal rows. -/
theorem test_decode_illegal :
    [0x07, 0x0f, 0x16, 0xff, 0x100, 0x105, 0x3f15, 0x4000, 0x4010, 0x100000005, 0xffffffffffffffff].map
      (decodeTableWord 64) = List.replicate 11 none := by decide

/-! ## Well-formedness: an ill-formed line for each check, and one at its limit that passes -/

theorem test_wf_value : (ScriptLine.wr (.name .opa) (2 ^ 64)).wellFormed = false ∧
    (ScriptLine.wr (.name .opa) (2 ^ 64 - 1)).wellFormed = true := by decide
theorem test_wf_number : (ScriptLine.rd (.number 256)).wellFormed = false ∧
    (ScriptLine.rd (.number 255)).wellFormed = true := by decide
theorem test_wf_cmd : (ScriptLine.cmd (.rotl 1)).wellFormed = false ∧ (ScriptLine.cmd .perm).wellFormed = true := by decide
theorem test_wf_rotation : (ScriptLine.cmdRotl 64).wellFormed = false ∧ (ScriptLine.cmdRotl 63).wellFormed = true := by decide
theorem test_wf_mem_range : (ScriptLine.memSet (2 ^ 64 - 1) 2 [1, 2]).wellFormed = false ∧
    (ScriptLine.memSet (2 ^ 64 - 2) 2 [1, 2]).wellFormed = true := by decide
theorem test_wf_mem_count : (ScriptLine.memSet 0 3 [1, 2]).wellFormed = false := by decide
theorem test_wf_mem_byte : (ScriptLine.memSet 0 2 [1, 256]).wellFormed = false := by decide
theorem test_wf_mem_get : (ScriptLine.memGet (2 ^ 64) 1).wellFormed = false := by decide
theorem test_wf_unit : (ScriptLine.unit .ecb 0).wellFormed = false ∧ (ScriptLine.unit .frnd 0).wellFormed = true := by decide
theorem test_wf_pseudo : (ScriptLine.setkey (2 ^ 64) 0).wellFormed = false ∧ (ScriptLine.setbuf 0 (2 ^ 64) 0).wellFormed = false ∧
    (ScriptLine.ldblk 0 (2 ^ 64)).wellFormed = false ∧ (ScriptLine.encrypt 0 0 (2 ^ 64)).wellFormed = false ∧
    (ScriptLine.decrypt (2 ^ 64) 0 0).wellFormed = false ∧ (ScriptLine.rotl 0 64).wellFormed = false := by decide

/-! ## One step of each command, expected values from 95_test_vectors.md -/

/-- V1. -/
theorem test_rotl_24 : field State.res (runWord (withOpa 0x0123456789abcdef) 0x1810) = some 0x6789abcdef012345 := by decide +kernel
/-- V1. -/
theorem test_rotl_wraps : field State.res (runWord (withOpa 0x8000000000000000) 0x0110) = some 1 := by decide +kernel
/-- V2: the result lists the source byte of each byte. -/
theorem test_perm_bytes : field State.res (runWord (withOpa 0x0706050403020100) 0x11) = some 0x0003060104070205 := by decide +kernel
/-- V3: every lane value. -/
theorem test_g0_lanes : field State.res (runWord (withOpa 0xfedcba9876543210) 0x12) = some 0xe7cd3a98f654b210 := by decide +kernel
/-- V3: every lane value. -/
theorem test_g1_lanes : field State.res (runWord (withOpa 0xfedcba9876543210) 0x13) = some 0xbafcde9856743210 := by decide +kernel
/-- V4. -/
theorem test_a16x3 : field State.res (runWord (withOpa 0x8000000000000000) 0x14) = some 0x4218000000000000 := by decide +kernel
/-- V7. -/
theorem test_frnd : field State.res (runWord (withOpa 0x00000000000000ff) 0x15) = some 0x5e00000b00000000 := by decide +kernel
/-- V6. -/
theorem test_kexpE : field (fun t => (t.rk[2], t.rk[53], statusWord t)) (runWord withKey 0x01)
    = some (0xf7016ad4e68dff75, 0x822d5ad59bc5ff4e, 0x1) := by decide +kernel
/-- V6. -/
theorem test_kexpD : field (fun t => (t.rk[0], t.rk[52], statusWord t)) (runWord withKey 0x02)
    = some (0x822d5ad59bc5ff4e, 0x3c4fcf098815f7ab, 0x3) := by decide +kernel
/-- V5, V6: the ends change places and the middle pair is swapped exactly once. -/
theorem test_krev : field (fun t => (t.rk[0], t.rk[26], t.rk[27], statusWord t)) (runWord ready 0x03)
    = some (0x283809a1de8e5001, 0xff768cd2a512a047, 0xf4d98f7da09cde68, 0x3) := by decide +kernel
/-- V10, last row. -/
theorem test_blk : field (fun t => (t.blk0, t.blk1)) (runWord ready 0x04)
    = some (0xbc519214e5cba06f, 0x12dac394aeb758cb) := by decide +kernel
/-- V14: no schedule. -/
theorem test_blk_noKey : field statusWord (runWord State.reset 0x04) = some 0x20 := by decide +kernel
/-- V13, "one block": 16 bytes 00 to 0f at 0x1000 into 0x1010. -/
theorem test_ecb_one_block :
    field (fun t => (t.nblk, bufferBytes t.mem 0x1010 16))
      (runWord { ready with mem := (List.range 15).map (fun k => (0x1001 + k, BitVec.ofNat 8 (k + 1))) } 0x05)
    = some (1, [0x71, 0x25, 0x56, 0x03, 0x78, 0xce, 0xa1, 0x9a, 0x44, 0x4e, 0xda, 0x42, 0xb8, 0x7e, 0x14, 0x84]) := by
  decide +kernel
/-- V14, last line: bytes 0x3000 to 0x3007 of the output region are absent. -/
theorem test_ecb_bus :
    field statusWord (runWord { ready with dst := 0x2ff8, absent := [⟨0x3000, 2 ^ 64 - 0x3000⟩] } 0x05) = some 0x61 := by
  decide +kernel
/-- 45_ecb_controller.md R92, its example. -/
theorem test_clrerr : field statusWord (runWord stopped 0x06) = some 0x01 := by decide +kernel
/-- V14: a word that is not exactly `CLRERR` is ignored while an error is recorded. -/
theorem test_not_clrerr : field statusWord (runWord stopped 0x106) = some 0x31 := by decide +kernel
/-- 45_ecb_controller.md R90. -/
theorem test_nop : field (fun t => decide (t = ready)) (runWord ready 0x00) = some true := by decide +kernel
/-- V14. -/
theorem test_illegal : field statusWord (runWord ready 0x07) = some 0x11 := by decide +kernel

/-- V16. -/
theorem test_reads : [0x0b, 0x09, 0x0d, 0x3f, 0x76, 0xff, 0x40, 0x42, 0x75].map (fun n => readRegister (BitVec.ofNat 8 n) ready)
    = [0x101036, 0, 0, 0, 0, 0, 0, 1, 0x283809a1de8e5001] := by decide +kernel
/-- V14: the same value rewritten clears `KVALID` all the same. -/
theorem test_key_write : field statusWord (step (facing ready (.regWrite 0x01 0))) = some 0 := by decide +kernel
/-- 70_reset_and_hazards.md R112: one block stored, then the reset falls before anything else. -/
theorem test_reset_inside :
    field (fun t => (t.kvalid, t.hung, readByte t.mem 0x1010, readByte t.mem 0x1018))
      (step (facing ready (.resetInside 0x05 57 true))) = some (false, true, 0x6f, 0x00) := by decide +kernel

/-! ## Premises that can be met: for each statement, states at the limits of its clauses -/

/-- No row is selected by the words 7 and `ROTL` with bit 14 set. -/
theorem no_row_selected (i : Instr) : (rowOf i).selects 0x07 = false ∧ (rowOf i).selects 0x4010 = false := by
  cases i <;> decide +kernel +revert

theorem ready_allowed : EcbAllowed ready where
  schedule := rfl
  wholeBlocks := by decide
  belowTop := fun _ => by decide
  sameOrApart := fun _ => by decide
  present := fun _ _ _ => rfl

/-- `SRC + LEN` is exactly `2^64`. -/
def atTop : State := { ready with src := 0xfffffffffffffff0 }

theorem atTop_allowed : EcbAllowed atTop where
  schedule := rfl
  wholeBlocks := by decide
  belowTop := fun _ => by decide
  sameOrApart := fun _ => by decide
  present := fun _ _ _ => rfl

/-- The empty Buffer anywhere. -/
def emptyBuffer : State := { ready with src := 0xffffffffffffffff, dst := 0xffffffffffffffff, len := 0 }

theorem emptyBuffer_allowed : EcbAllowed emptyBuffer where
  schedule := rfl
  wholeBlocks := by decide
  belowTop := fun h => absurd h (by decide)
  sameOrApart := fun h => absurd h (by decide)
  present := fun h => absurd h (by decide)

/-- In place. -/
def inPlace : State := { ready with dst := 0x1000 }

theorem inPlace_allowed : EcbAllowed inPlace where
  schedule := rfl
  wholeBlocks := by decide
  belowTop := fun _ => by decide
  sameOrApart := fun _ => .inl rfl
  present := fun _ _ _ => rfl

theorem witness_DecodeAndEncodeAgree : decode 0x3f10 = .ok (.rotl 63) := by decide
theorem witness_DecodeFollowsTheOpcodeMap : decode 0x3f10 = .ok (.rotl 63) ∧ (rowOf (.rotl 0)).selects 0x3f10 = true := by decide
theorem witness_IllegalWordRaisesAndChangesNothingElse :
    ready.seq.phase = .idle ∧ ready.err = .noError ∧ stopped.seq.phase = .idle ∧ stopped.err ≠ .noError ∧
      ∀ i : Instr, (rowOf i).selects 0x4010 = false :=
  ⟨rfl, rfl, rfl, by decide, fun i => (no_row_selected i).2⟩
theorem witness_StepRunsTheDecodedCommand :
    (facing ready (.regWrite 0x09 0x11)).hung = false ∧ (facing ready (.regWrite 0x09 0x11)).script = [.regWrite 0x09 0x11] ∧
      decode 0x11 = .ok .perm := by decide
theorem witness_StepRunsAnIllegalWord :
    ∀ s ∈ [facing ready (.regWrite 0x09 0x4010), facing stopped (.regWrite 0x09 0x4010)],
      s.hung = false ∧ s.script = .regWrite 0x09 0x4010 :: [] ∧ s.seq.phase = .idle ∧
        decode 0x4010 = .error .zeroField ∧ (facing ready (.regWrite 0x09 0x4010)).err = .noError ∧
        (facing stopped (.regWrite 0x09 0x4010)).err ≠ .noError := by decide +kernel
theorem witness_IdleStepChangesNothing : ready.hung = false ∧ ready.script = [] := by decide
theorem witness_NopChangesNothing : fieldOpc 0x100 = fieldOpc 0x00 ∧ (0x100 : Word) ≠ 0x00 := by decide
theorem witness_RotlWritesTheRotationToRes :
    ready.err = .noError ∧ stopped.err ≠ .noError ∧ fieldOpc 0x4010 = 0x10 ∧ fieldZero 0x4010 ≠ 0 := by decide
theorem witness_PermWritesThePermutationToRes :
    ready.err = .noError ∧ stopped.err ≠ .noError ∧ fieldOpc 0x111 = fieldOpc 0x11 ∧ (0x111 : Word) ≠ 0x11 := by decide
theorem witness_G0CommandWritesRes :
    ready.err = .noError ∧ stopped.err ≠ .noError ∧ fieldOpc 0x112 = fieldOpc 0x12 ∧ (0x112 : Word) ≠ 0x12 := by decide
theorem witness_G1CommandWritesRes :
    ready.err = .noError ∧ stopped.err ≠ .noError ∧ fieldOpc 0x113 = fieldOpc 0x13 ∧ (0x113 : Word) ≠ 0x13 := by decide
theorem witness_A16x3CommandWritesRes :
    ready.err = .noError ∧ stopped.err ≠ .noError ∧ fieldOpc 0x114 = fieldOpc 0x14 ∧ (0x114 : Word) ≠ 0x14 := by decide
theorem witness_FrndCommandWritesRes :
    ready.err = .noError ∧ stopped.err ≠ .noError ∧ fieldOpc 0x115 = fieldOpc 0x15 ∧ (0x115 : Word) ≠ 0x15 := by decide
theorem witness_KexpEDerivesTheSchedule :
    ready.err = .noError ∧ stopped.err ≠ .noError ∧ fieldOpc 0x101 = fieldOpc 0x01 ∧ (0x101 : Word) ≠ 0x01 := by decide
theorem witness_KexpDDerivesTheReversedSchedule :
    ready.err = .noError ∧ ready.key0 = 0 ∧ ready.key1 = 0 ∧ stopped.err ≠ .noError ∧
      fieldOpc 0x102 = fieldOpc 0x02 ∧ (0x102 : Word) ≠ 0x02 := by decide
theorem witness_KrevReversesTheSchedule :
    ready.err = .noError ∧ ready.kvalid = true ∧ ready.key0 = 0 ∧ ready.key1 = 0 ∧ ScheduleMatchesKey ready ∧
      State.reset.err = .noError ∧ State.reset.seq.phase = .idle ∧ State.reset.kvalid = false ∧ stopped.err ≠ .noError ∧
      fieldOpc 0x103 = fieldOpc 0x03 ∧ (0x103 : Word) ≠ 0x03 :=
  ⟨rfl, rfl, rfl, rfl, ⟨fun _ _ => rfl, fun _ h => by cases h⟩, rfl, rfl, rfl, by decide, by decide, by decide⟩
theorem witness_BlkTransformsTheRegisterBlock :
    ready.err = .noError ∧ ready.kvalid = true ∧ State.reset.err = .noError ∧ State.reset.seq.phase = .idle ∧
      State.reset.kvalid = false ∧ stopped.err ≠ .noError ∧ fieldOpc 0x104 = fieldOpc 0x04 ∧ (0x104 : Word) ≠ 0x04 := by decide
theorem witness_BlkRoundTripThroughKrev : ready.err = .noError := rfl
theorem witness_ClrerrClearsTheErrorOnly :
    stopped.err ≠ .noError ∧ (0x106 : Word) ≠ 0x06 ∧ fieldOpc 0x106 = fieldOpc 0x06 ∧ statusWord stopped = 0x31 := by decide
theorem witness_EcbCompletesWhenAllowed :
    (ready.err = .noError ∧ EcbAllowed ready) ∧ (atTop.err = .noError ∧ EcbAllowed atTop) ∧
      (emptyBuffer.err = .noError ∧ EcbAllowed emptyBuffer ∧ emptyBuffer.len = 0) :=
  ⟨⟨rfl, ready_allowed⟩, ⟨rfl, atTop_allowed⟩, rfl, emptyBuffer_allowed, rfl⟩
theorem witness_EcbRaisesNoKey : State.reset.err = .noError ∧ State.reset.seq.phase = .idle ∧ State.reset.kvalid = false := by
  decide
theorem witness_EcbRaisesBadLength :
    let s : State := { ready with len := 17 }
    s.err = .noError ∧ s.seq.phase = .idle ∧ s.kvalid = true ∧ s.len.toNat % 16 ≠ 0 := by decide
theorem witness_EcbRaisesRange :
    let s : State := { ready with src := 0xfffffffffffffff1 }
    s.err = .noError ∧ s.seq.phase = .idle ∧ s.kvalid = true ∧ s.len.toNat % 16 = 0 ∧ 0 < s.len.toNat ∧
      s.src.toNat + s.len.toNat = 2 ^ 64 + 1 := by decide
theorem witness_EcbRaisesOverlap :
    let s : State := { ready with dst := 0x100f }
    s.err = .noError ∧ s.seq.phase = .idle ∧ s.kvalid = true ∧ s.len.toNat % 16 = 0 ∧ 0 < s.len.toNat ∧
      s.src.toNat + s.len.toNat ≤ 2 ^ 64 ∧ s.dst.toNat + s.len.toNat ≤ 2 ^ 64 ∧ s.dst ≠ s.src ∧
      s.dst.toNat < s.src.toNat + s.len.toNat ∧ s.src.toNat < s.dst.toNat + s.len.toNat := by decide
theorem witness_EcbRaisesBus :
    let s : State := { ready with absent := [⟨0x101f, 1⟩] }
    s.err = .noError ∧ s.seq.phase = .idle ∧ s.kvalid = true ∧ s.len.toNat % 16 = 0 ∧ 0 < s.len.toNat ∧
      s.src.toNat + s.len.toNat ≤ 2 ^ 64 ∧ s.dst.toNat + s.len.toNat ≤ 2 ^ 64 ∧
      s.src.toNat + s.len.toNat ≤ s.dst.toNat ∧ memPresent s.absent 0x101f = false ∧
      s.dst.toNat ≤ 0x101f ∧ 0x101f < s.dst.toNat + s.len.toNat := by decide
theorem witness_EcbTransformsTheBufferOnly :
    ready.err = .noError ∧ Memory.wf ready.mem = true ∧ EcbAllowed ready ∧
      ¬ InRegion ready.dst.toNat ready.len.toNat 0x1020 ∧ ¬ InRegion ready.dst.toNat ready.len.toNat 0x100f :=
  ⟨rfl, rfl, ready_allowed, by unfold InRegion; decide, by unfold InRegion; decide⟩
theorem witness_EcbInPlaceRoundTrip :
    inPlace.err = .noError ∧ Memory.wf inPlace.mem = true ∧ EcbAllowed inPlace ∧ inPlace.dst = inPlace.src :=
  ⟨rfl, rfl, inPlace_allowed, rfl⟩
theorem witness_BlockOrderIsNotObservable :
    let s : State := { inPlace with len := 32 }
    Memory.wf s.mem = true ∧ EcbAllowed s ∧ [1, 0].Perm (List.range (s.len.toNat / 16)) :=
  ⟨rfl, ⟨rfl, by decide, fun _ => by decide, fun _ => .inl rfl, fun _ _ _ => rfl⟩, by decide⟩
theorem witness_EcbfLaws :
    (List.replicate 16 (1 : Byte)).length % 16 = 0 ∧ ([] : List Byte).length % 16 = 0 ∧ ([1] : List Byte).length % 16 ≠ 0 ∧
      ecbf (keySchedule 0 0) [] = some [] ∧
      ((List.replicate 32 (1 : Byte)).drop (16 * 0)).take 16 = ((List.replicate 32 (1 : Byte)).drop (16 * 1)).take 16 := by
  decide +kernel
theorem witness_EcbfHasAValue : (ecbf (keySchedule 0 0) (List.replicate 32 1)).isSome = true := by decide +kernel
theorem witness_RotationMovesEveryBit : (63 : BitVec 6) ≠ 0 ∧ (1 : BitVec 6) ≠ 0 ∧ 63 < 64 := by decide
theorem witness_RotationLaws : (63 : BitVec 6) ≠ 0 ∧ (1 : BitVec 6) ≠ 0 ∧ 15 < 16 := by decide
theorem witness_PermutationMovesWholeBytes : 7 < 8 ∧ 0 < 7 ∧ 0 < 1 ∧ 1 < 8 := by decide
theorem witness_G0OnLaneBits : 0 < 16 ∧ 15 < 16 := by decide
theorem witness_G1OnLaneBits : 0 < 16 ∧ 15 < 16 := by decide
theorem witness_NonlinearLaneTables : 0 < 16 ∧ 15 < 16 := by decide
theorem witness_MixingStepInLanes : 0 ≤ 13 ∧ 13 ≤ 13 := by decide
theorem witness_ScheduleFollowsTheRecurrence : 0 ≤ 51 ∧ 51 ≤ 51 := by decide
theorem witness_ReversalInPlaceIsReversal : 0 < 54 ∧ 53 < 54 := by decide
theorem witness_ScheduleLaws :
    ready.err = .noError ∧ State.reset.err = .noError ∧ ready.key0 = State.reset.key0 ∧ ready.key1 = State.reset.key1 ∧
      keySchedule 0 0 = keySchedule 0 0 ∧ 0 < 54 ∧ 53 < 54 :=
  ⟨rfl, rfl, rfl, rfl, rfl, by decide, by decide⟩
theorem witness_FormulasOfTheUnits : 0 < 8 ∧ 7 < 8 := by decide
theorem witness_BlockTransformRunsTheRounds : 0 < 54 ∧ 53 < 54 := by decide
theorem witness_RegisterReads :
    (facing ready (.regRead 0x75)).hung = false ∧ (facing ready (.regRead 0x75)).script = [.regRead 0x75] ∧ 0 < 54 ∧ 53 < 54 := by
  decide
theorem witness_RegisterWrites (n : BitVec 8) (v : Word) :
    (facing stopped (.regWrite n v)).hung = false ∧ (facing stopped (.regWrite n v)).script = .regWrite n v :: [] := ⟨rfl, rfl⟩
theorem witness_RegisterWrites_readOnly : 0x40 ≤ (0x40 : BitVec 8).toNat ∧ (0x40 : BitVec 8).toNat ≤ 0x75 ∧
    0x40 ≤ (0x75 : BitVec 8).toNat ∧ (0x75 : BitVec 8).toNat ≤ 0x75 := by decide
theorem witness_ReservedRegistersHaveNoEffect :
    (∀ n ∈ [(0x0D : BitVec 8), 0x3F, 0x76, 0xFF], (0x0D ≤ n.toNat ∧ n.toNat ≤ 0x3F) ∨ 0x76 ≤ n.toNat) ∧
      (facing ready (.regWrite 0x0D 5)).hung = false ∧ (facing ready (.regWrite 0x0D 5)).script = [.regWrite 0x0D 5] ∧
      (facing ready (.regRead 0xFF)).hung = false ∧ (facing ready (.regRead 0xFF)).script = [.regRead 0xFF] := by decide
theorem witness_KvalidFollowsTheLatestKeyEvent :
    ∀ e ∈ ([.reset, .resetInside 0x01 0 false, .regWrite 0x00 7, .regWrite 0x01 7, .regWrite 0x02 7, .regWrite 0x09 0x01,
        .regWrite 0x09 0x02, .regWrite 0x09 0x03, .regRead 0x0A, .memPlace 0 1, .memInspect 0] : List Event),
      (facing withKey e).hung = false ∧ (facing withKey e).script = e :: [] ∧
        field (fun _ => true) (step (facing withKey e)) = some true := by decide +kernel
theorem witness_CommandsWriteOnlyTheirRegisters : ready.seq.phase = .idle ∧ Instr.nop ≠ .ecb ∧ Instr.nop ≠ .krev := by decide
theorem witness_RaiseRecordsTheCodeOnly : ready.seq.phase = .idle := rfl
theorem witness_FailStop :
    (facing stopped (.regWrite 0x09 0x05)).hung = false ∧ (facing stopped (.regWrite 0x09 0x05)).script = [.regWrite 0x09 0x05] ∧
      (facing stopped (.regWrite 0x09 0x05)).err ≠ .noError ∧ (0x05 : Word) ≠ 0x06 := by decide
theorem witness_FirstErrorKept :
    ∃ t, step (facing stopped (.regWrite 0x09 0x05)) = .next t ∧ stopped.err ≠ .noError ∧ t.err ≠ .noError :=
  ⟨stopped, rfl, by decide, by decide⟩
theorem witness_RaisingCommandHasNoOtherEffect :
    State.reset.err = .noError ∧ State.reset.seq.phase = .idle ∧
      ∃ t, exec .blk State.reset = .next t ∧ t.err ≠ .noError := ⟨rfl, rfl, _, rfl, by decide⟩
theorem witness_WordAccessIsLittleEndian :
    Memory.wf [(0x1000, 1), (0x1007, 2)] = true ∧ 7 < 8 ∧ (0xfff < 0x1000 ∨ 0x1000 + 8 ≤ 0xfff) ∧
      (0x1008 < 0x1000 ∨ 0x1000 + 8 ≤ 0x1008) := by decide
theorem witness_PresenceCheckCoversEveryByte : InRegion 0x1000 16 0x100f ∧ regionPresent [⟨0x1010, 1⟩] 0x1000 16 = true ∧
    regionPresent [⟨0x100f, 1⟩] 0x1000 16 = false := by unfold InRegion; decide
theorem witness_OverlapCheckIsExact : 0 < 16 ∧ partlyOverlap 0x1000 0x1010 16 = false ∧ partlyOverlap 0x1000 0x100f 16 = true := by
  decide
theorem witness_HostMemoryAccess :
    let hole : State := { ready with absent := [⟨0x1000, 1⟩] }
    Memory.wf ready.mem = true ∧ Memory.wf hole.mem = true ∧
      (facing ready (.memPlace 0x1000 7)).hung = false ∧ (facing ready (.memPlace 0x1000 7)).script = [.memPlace 0x1000 7] ∧
      memPresent ready.absent 0x1000 = true ∧ (facing ready (.memInspect 0x1000)).script = [.memInspect 0x1000] ∧
      (facing hole (.memPlace 0x1000 7)).hung = false ∧ (facing hole (.memPlace 0x1000 7)).script = [.memPlace 0x1000 7] ∧
      (facing hole (.memInspect 0x1000)).script = [.memInspect 0x1000] ∧ memPresent hole.absent 0x1000 = false ∧
      memPresent hole.absent 0x1001 = true := by decide
theorem witness_ResetEventClearsTheControlState :
    (facing ready .reset).hung = false ∧ (facing ready .reset).script = [.reset] := by decide
theorem witness_ResetInsideCommandKeepsStoredBlocks :
    (facing ready (.resetInside 0x05 57 true)).hung = false ∧ (facing ready (.resetInside 0x05 57 true)).seq.phase = .idle ∧
      (facing ready (.resetInside 0x05 57 true)).script = [.resetInside 0x05 57 true] ∧ decode 0x05 = .ok .ecb ∧
      (facing ready (.resetInside 0x07 0 false)).script = [.resetInside 0x07 0 false] ∧ decode 0x07 ≠ .ok .ecb ∧
      ecbError ready = .noError ∧ blockCount ready = 1 ∧
      (facing stopped (.resetInside 0x05 57 true)).hung = false ∧ stopped.seq.phase = .idle ∧ stopped.err ≠ .noError ∧
      (facing stopped (.resetInside 0x05 57 true)).script = [.resetInside 0x05 57 true] ∧
      (facing State.reset (.resetInside 0x05 57 true)).hung = false ∧ State.reset.seq.phase = .idle ∧
      (facing State.reset (.resetInside 0x05 57 true)).script = [.resetInside 0x05 57 true] ∧
      ecbError State.reset ≠ .noError := by decide
theorem witness_EveryStepKeepsTheInvariant : ready.Inv ∧ ∃ t, step ready = .next t :=
  ⟨⟨⟨fun _ _ => rfl, fun _ h => by cases h⟩, rfl, rfl⟩, ready, rfl⟩
theorem witness_SequencerAgreesWithCommands : ready.seq.phase = .idle := rfl
theorem witness_PseudoInstructionsExpand :
    2 ^ 64 - 1 < 2 ^ 64 ∧ 255 < 256 ∧ 63 < 64 ∧ Instr.isPlainUnit .frnd = true ∧ Instr.isPlainUnit .perm = true ∧
      (∀ s, Instr.kexpD ≠ .rotl s) ∧ (∀ s, Instr.nop ≠ .rotl s) ∧
      (2 ^ 64 - 2) + [0, 255].length ≤ 2 ^ 64 ∧ (∀ b ∈ [0, 255], b < 256) ∧
      eventsOf (.cmd .kexpD) = some [commandOf .kexpD] ∧ scriptEvents [] = some [] := by decide

end Sys2Proof.Tests
end

section
/-! SUPPORT and the settled statements about the register file, `KVALID` and the invariant (10_state.md). First one
lemma per question about the register file, the decoder, `STATUS` and what a command writes; then what the sequencer
stores when a reset cuts a command short; then the invariant, event by event; last the statements themselves. -/

namespace Sys2Proof.Machine

/-! ### Register numbers -/

/-- The number of a register selects it (10_state.md R11). -/
theorem regOf_regNumber (r : Reg) : regOf (regNumber r) = some r := by
  cases r with
  | rk i => revert i; decide
  | _ => rfl

/-- A number that selects a register is that register's number. -/
theorem regNumber_of_regOf {n : BitVec 8} {r : Reg} (h : regOf n = some r) : regNumber r = n := by
  have hn := n.isLt
  unfold regOf at h
  split at h
  case h_14 =>
    split at h
    · rename_i hk
      cases h
      apply BitVec.eq_of_toNat_eq
      simp only [regNumber, BitVec.toNat_ofNat]
      omega
    · cases h
  all_goals
    rename_i hn
    cases h
    exact BitVec.eq_of_toNat_eq hn.symm

theorem regOf_eq_some_iff {n : BitVec 8} {r : Reg} : regOf n = some r ↔ n = regNumber r :=
  ⟨fun h => (regNumber_of_regOf h).symm, fun h => h ▸ regOf_regNumber r⟩

/-- The reserved numbers of 10_state.md R22 select no register. -/
theorem regOf_reserved {n : BitVec 8} (h : (0x0D ≤ n.toNat ∧ n.toNat ≤ 0x3F) ∨ 0x76 ≤ n.toNat) :
    regOf n = none := by
  cases hr : regOf n with
  | none => rfl
  | some r =>
    rw [regOf_eq_some_iff.1 hr] at h
    cases r with
    | rk i =>
      simp only [regNumber, BitVec.toNat_ofNat] at h
      omega
    | _ => revert h; decide

/-- The numbers from 0x40 to 0x75 select the round keys. -/
theorem regOf_roundKey {n : BitVec 8} (h : 0x40 ≤ n.toNat ∧ n.toNat ≤ 0x75) :
    regOf n = some (.rk ⟨n.toNat - 0x40, by omega⟩) := by
  refine regOf_eq_some_iff.2 (BitVec.eq_of_toNat_eq ?_)
  simp only [regNumber, BitVec.toNat_ofNat]
  omega

theorem readRegister_regNumber (r : Reg) (s : State) : readRegister (regNumber r) s = regValue s r := by
  simp [readRegister, regOf_regNumber]

theorem readRegister_reserved {n : BitVec 8} (h : regOf n = none) (s : State) : readRegister n s = 0 := by
  simp [readRegister, h]

theorem writeRegister_reserved {n : BitVec 8} (h : regOf n = none) (v : Word) (s : State) :
    writeRegister n v s = .next s := by
  simp [writeRegister, h]

theorem writeRegister_of_regOf {n : BitVec 8} {r : Reg} (h : regOf n = some r) (hr : r ≠ .cmd) (v : Word) (s : State) :
    writeRegister n v s = .next (setRegister r v s) := by
  cases r <;> simp_all [writeRegister]

/-! ### Command words -/

/-- A word with zeros in bits 63:14 is its opcode and its immediate (30_encoding.md R50). -/
theorem word_of_fields {v : Word} (h : fieldZero v = 0) :
    v = (fieldOpc v).setWidth 64 ||| ((fieldImm6 v).setWidth 64 <<< 8) := by
  have hzero (j : Nat) : v.getLsbD (14 + j) = false ∨ 50 ≤ j := by
    have hbit := congrArg (fun z => z.getLsbD j) h
    simpa [fieldZero, BitVec.getLsbD_extractLsb', Decidable.imp_iff_not_or, or_comm] using hbit
  apply BitVec.eq_of_getLsbD_eq
  intro k hk
  simp only [BitVec.getLsbD_or, BitVec.getLsbD_setWidth, BitVec.getLsbD_shiftLeft, fieldOpc, fieldImm6,
    BitVec.getLsbD_extractLsb']
  obtain hlow | hmid | hhigh : k < 8 ∨ (8 ≤ k ∧ k < 14) ∨ 14 ≤ k := by omega
  · simp [hk, hlow]
  · obtain ⟨j, rfl⟩ := Nat.exists_eq_add_of_le hmid.1
    simp [hk, show j < 6 by omega, show j < 64 by omega]
  · obtain ⟨j, rfl⟩ := Nat.exists_eq_add_of_le hhigh
    simp [(hzero j).resolve_right (by omega), show ¬ 14 + j - 8 < 6 by omega, show ¬ 14 + j < 8 by omega]

/-- A command without an immediate has the opcode it was found under, and no immediate. -/
theorem fields_of_fixedCommand {c : BitVec 8} {i : Instr} (h : fixedCommand c = some i) :
    opcodeOf i = c ∧ immediateOf i = 0 := by
  unfold fixedCommand at h
  split at h
  case h_13 => cases h
  all_goals
    rename_i hc
    cases h
    exact ⟨BitVec.eq_of_toNat_eq hc.symm, rfl⟩

/-- A word that decodes is the encoding of what it decodes to (30_encoding.md R53). -/
theorem eq_encode_of_decode {v : Word} {i : Instr} (h : decode v = .ok i) : v = encode i := by
  unfold decode at h
  split at h
  · cases h
  · rename_i hz
    have hv := word_of_fields (not_not.1 hz)
    split at h
    · rename_i hr
      cases h
      rwa [hr] at hv
    · split at h
      · cases h
      · rename_i j hj
        split at h
        · rename_i hi
          cases h
          obtain ⟨ho, hm⟩ := fields_of_fixedCommand hj
          rwa [← ho, hi, ← hm] at hv
        · cases h

theorem decode_kexpE_iff {v : Word} : decode v = .ok .kexpE ↔ v = 0x0000000000000001 :=
  ⟨fun h => eq_encode_of_decode h, fun h => h ▸ rfl⟩

theorem decode_kexpD_iff {v : Word} : decode v = .ok .kexpD ↔ v = 0x0000000000000002 :=
  ⟨fun h => eq_encode_of_decode h, fun h => h ▸ rfl⟩

/-! ### ECB: what its processing keeps -/

theorem ecbBlocks_phase (s : State) (n : Nat) :
    ((List.range n).foldl ecbBlock s).seq.phase = s.seq.phase := by
  induction n with
  | zero => rfl
  | succ n ih => rw [ecbBlocks_succ, ecbBlock_phase, ih]

/-- The processing of `ECB` changes the memory, the hidden state and `NBLK`, and nothing else. -/
theorem ecbProcess_frame (s : State) :
    ecbProcess s =
      { s with mem := (ecbProcess s).mem, seq := (ecbProcess s).seq, nblk := (ecbProcess s).nblk } := by
  unfold ecbProcess
  rw [ecbBlocks_frame]
  rfl

theorem ecbProcess_phase (s : State) : (ecbProcess s).seq.phase = s.seq.phase :=
  ecbBlocks_phase (enterBlocks s) _

/-! ### Each command's meaning as an effect under fail-stop -/

theorem exec_nop (s : State) : exec .nop s = command s (fun s => s) := rfl
theorem exec_kexpE (s : State) :
    exec .kexpE s = command s (fun s => setSchedule (keySchedule s.key0 s.key1) false 52 s) := rfl
theorem exec_kexpD (s : State) :
    exec .kexpD s = command s (fun s => setSchedule (reverseSchedule (keySchedule s.key0 s.key1)) true 27 s) := rfl
theorem exec_krev (s : State) :
    exec .krev s = command s
      (fun s => if s.kvalid then setSchedule (reverseInPlace s.rk) (!s.dir) 27 s else raise .noKey s) := rfl
theorem exec_blk (s : State) :
    exec .blk s = command s
      (fun s => if s.kvalid then setBlock (transformBlock s.rk (s.blk0, s.blk1)) s else raise .noKey s) := rfl
theorem exec_ecb (s : State) : exec .ecb s = command s ecbEffect := rfl
theorem exec_clrerr (s : State) : exec .clrerr s = .next (clearError s) := rfl
theorem exec_rotl (n : BitVec 6) (s : State) :
    exec (.rotl n) s = command s (fun s => setRes (rotl64 s.opa n) s) := rfl
theorem exec_perm (s : State) : exec .perm s = command s (fun s => setRes (permute s.opa) s) := rfl
theorem exec_g0 (s : State) : exec .g0 s = command s (fun s => setRes (g0 s.opa) s) := rfl
theorem exec_g1 (s : State) : exec .g1 s = command s (fun s => setRes (g1 s.opa) s) := rfl
theorem exec_a16x3 (s : State) : exec .a16x3 s = command s (fun s => setRes (a16x3 s.opa) s) := rfl
theorem exec_frnd (s : State) : exec .frnd s = command s (fun s => setRes (roundF s.opa) s) := rfl

/-! ### What a command writes -/

/-- The registers a command may write, by the table of 10_state.md R23: every other part of the state is in `t` what it
was in `s`. -/
structure WritesItsRow (i : Instr) (s t : State) : Prop where
  key0 : t.key0 = s.key0
  key1 : t.key1 = s.key1
  src : t.src = s.src
  dst : t.dst = s.dst
  len : t.len = s.len
  opa : t.opa = s.opa
  absent : t.absent = s.absent
  script : t.script = s.script
  observed : t.observed = s.observed
  hung : t.hung = s.hung
  freeCount : t.freeCount = s.freeCount
  idle : s.seq.phase = .idle → t.seq.phase = .idle
  schedule : i ≠ .kexpE ∧ i ≠ .kexpD ∧ i ≠ .krev → t.rk = s.rk ∧ t.dir = s.dir
  kvalid : i ≠ .kexpE ∧ i ≠ .kexpD → t.kvalid = s.kvalid
  block : i ≠ .blk → t.blk0 = s.blk0 ∧ t.blk1 = s.blk1
  memory : i ≠ .ecb → t.nblk = s.nblk ∧ t.mem = s.mem
  result : (∀ n, i ≠ .rotl n) ∧ i ≠ .perm ∧ i ≠ .g0 ∧ i ≠ .g1 ∧ i ≠ .a16x3 ∧ i ≠ .frnd → t.res = s.res
  error : i ≠ .krev ∧ i ≠ .blk ∧ i ≠ .ecb ∧ i ≠ .clrerr → t.err = s.err

theorem WritesItsRow.refl (i : Instr) (s : State) : WritesItsRow i s s := by
  constructor <;> simp

/-- `RES` is in the row of every unit command. -/
theorem setRes_writesItsRow {i : Instr}
    (hi : ¬ ((∀ n, i ≠ .rotl n) ∧ i ≠ .perm ∧ i ≠ .g0 ∧ i ≠ .g1 ∧ i ≠ .a16x3 ∧ i ≠ .frnd)) (v : Word) (s : State) :
    WritesItsRow i s (setRes v s) := by
  constructor <;> simp [hi]

/-- The schedule and its flags are in the rows of the two `KEXP`. -/
theorem setSchedule_writesItsRow {i : Instr} (hi : i = .kexpE ∨ i = .kexpD) (rk : Schedule) (d : Bool) (k : BitVec 6)
    (s : State) : WritesItsRow i s (setSchedule rk d k s) := by
  rcases hi with rfl | rfl <;> constructor <;> simp

/-- `KREV` writes the schedule of a state that has one, so that `KVALID` stays. -/
theorem setSchedule_writesItsRow_krev {s : State} (hv : s.kvalid = true) (rk : Schedule) (d : Bool) (k : BitVec 6) :
    WritesItsRow .krev s (setSchedule rk d k s) := by
  constructor <;> simp [hv]

theorem setBlock_writesItsRow (o : Word × Word) (s : State) : WritesItsRow .blk s (setBlock o s) := by
  constructor <;> simp

/-- `ERR` is in the rows of the commands that raise. -/
theorem raise_writesItsRow {i : Instr} (hi : i = .krev ∨ i = .blk) (c : ErrCode) (s : State) :
    WritesItsRow i s (raise c s) := by
  rcases hi with rfl | rfl <;> constructor <;> simp

theorem clearError_writesItsRow (s : State) : WritesItsRow .clrerr s (clearError s) := by
  constructor <;> simp

theorem ecbEffect_writesItsRow (s : State) : WritesItsRow .ecb s (ecbEffect s) := by
  by_cases hc : ecbError s = .noError
  · rw [ecbEffect_run hc, ecbProcess_frame]
    constructor <;> simp [ecbProcess_phase]
  · rw [ecbEffect_raise hc]
    constructor <;> simp

/-- Fail-stop leaves everything, so that a command writes its row when its effect does. -/
theorem command_writesItsRow {i : Instr} {f : State → State} {s : State} (h : WritesItsRow i s (f s)) :
    ∃ t, command s f = .next t ∧ WritesItsRow i s t := by
  by_cases he : s.err = .noError
  · exact ⟨_, command_clear he f, h⟩
  · exact ⟨_, command_stopped he f, .refl i s⟩

/-- Every command completes and writes the registers of its row only. -/
theorem exec_writesItsRow (i : Instr) (s : State) : ∃ t, exec i s = .next t ∧ WritesItsRow i s t := by
  cases i with
  | nop => rw [exec_nop]; exact command_writesItsRow (.refl .nop s)
  | kexpE => rw [exec_kexpE]; exact command_writesItsRow (setSchedule_writesItsRow (.inl rfl) ..)
  | kexpD => rw [exec_kexpD]; exact command_writesItsRow (setSchedule_writesItsRow (.inr rfl) ..)
  | krev =>
    rw [exec_krev]
    refine command_writesItsRow ?_
    split
    next hv => exact setSchedule_writesItsRow_krev hv ..
    next => exact raise_writesItsRow (.inl rfl) ..
  | blk =>
    rw [exec_blk]
    refine command_writesItsRow ?_
    split
    next => exact setBlock_writesItsRow ..
    next => exact raise_writesItsRow (.inr rfl) ..
  | ecb => rw [exec_ecb]; exact command_writesItsRow (ecbEffect_writesItsRow s)
  | clrerr => exact ⟨_, exec_clrerr s, clearError_writesItsRow s⟩
  | rotl n => rw [exec_rotl]; exact command_writesItsRow (setRes_writesItsRow (fun h => h.1 n rfl) ..)
  | perm => rw [exec_perm]; exact command_writesItsRow (setRes_writesItsRow (by simp) ..)
  | g0 => rw [exec_g0]; exact command_writesItsRow (setRes_writesItsRow (by simp) ..)
  | g1 => rw [exec_g1]; exact command_writesItsRow (setRes_writesItsRow (by simp) ..)
  | a16x3 => rw [exec_a16x3]; exact command_writesItsRow (setRes_writesItsRow (by simp) ..)
  | frnd => rw [exec_frnd]; exact command_writesItsRow (setRes_writesItsRow (by simp) ..)

theorem writesItsRow_of_exec {i : Instr} {s t : State} (h : exec i s = .next t) : WritesItsRow i s t := by
  obtain ⟨u, hu, hrow⟩ := exec_writesItsRow i s
  rw [hu] at h
  cases h
  exact hrow

/-! ### KVALID -/

/-- With no error recorded the two `KEXP` set `KVALID`; no other command changes it (10_state.md R27). -/
theorem exec_kvalid {i : Instr} {s t : State} (h : exec i s = .next t) :
    t.kvalid = if s.err = .noError ∧ (i = .kexpE ∨ i = .kexpD) then true else s.kvalid := by
  have hkexp {rk : State → Schedule} {d : Bool} {k : BitVec 6}
      (hc : command s (fun s => setSchedule (rk s) d k s) = .next t) :
      t.kvalid = if s.err = .noError then true else s.kvalid := by
    obtain ⟨he, rfl⟩ | ⟨he, rfl⟩ := command_cases hc <;> simp [he]
  by_cases hi : i = .kexpE ∨ i = .kexpD
  · rcases hi with rfl | rfl
    · rw [exec_kexpE] at h
      simpa using hkexp h
    · rw [exec_kexpD] at h
      simpa using hkexp h
  · rw [if_neg fun hn => hi hn.2]
    exact (writesItsRow_of_exec h).kvalid (not_or.1 hi)

/-- What a write to `CMD` does to `KVALID`. -/
theorem runCommand_kvalid {v : Word} {s t : State} (h : runCommand v s = .next t) :
    t.kvalid = if s.err = .noError ∧ (v = 0x0000000000000001 ∨ v = 0x0000000000000002) then true else s.kvalid := by
  simp only [← decode_kexpE_iff, ← decode_kexpD_iff]
  obtain ⟨i, hd, hr⟩ | ⟨r, hd, hr⟩ := runCommand_cases v s
  · rw [hr] at h
    simpa [hd] using exec_kvalid h
  · rw [hr] at h
    obtain ⟨-, rfl⟩ | ⟨-, rfl⟩ := command_cases h <;> simp [hd]

theorem setRegister_kvalid (r : Reg) (v : Word) (s : State) :
    (setRegister r v s).kvalid = if r = .key0 ∨ r = .key1 then false else s.kvalid := by
  cases r <;> simp [setRegister]

/-- What a host register write does to `KVALID` (10_state.md R27). -/
theorem writeRegister_kvalid {n : BitVec 8} {v : Word} {s t : State} (h : writeRegister n v s = .next t) :
    t.kvalid =
      if n = 0x00 ∨ n = 0x01 then false
      else if n = 0x09 ∧ s.err = .noError ∧ (v = 0x0000000000000001 ∨ v = 0x0000000000000002) then true
      else s.kvalid := by
  have h0 : n = 0x00 ↔ regOf n = some .key0 := (regOf_eq_some_iff (r := .key0)).symm
  have h1 : n = 0x01 ↔ regOf n = some .key1 := (regOf_eq_some_iff (r := .key1)).symm
  have h9 : n = 0x09 ↔ regOf n = some .cmd := (regOf_eq_some_iff (r := .cmd)).symm
  simp only [h0, h1, h9]
  obtain ⟨hr, hw⟩ | ⟨r, hr, hcmd, hw⟩ | ⟨hr, hw⟩ := writeRegister_cases n v s
  · rw [hw] at h
    simpa [hr] using runCommand_kvalid h
  · rw [hw] at h
    cases h
    simp [hr, hcmd, setRegister_kvalid]
  · rw [hw] at h
    cases h
    simp [hr]

/-! ### The bits of `STATUS` -/

theorem ErrCode.code_le (c : ErrCode) : c.code.toNat ≤ 6 := by
  cases c <;> decide

theorem ErrCode.eq_noError_iff (c : ErrCode) : c = .noError ↔ c.code = 0 := by
  cases c <;> decide

/-- The bits of `STATUS` (10_state.md R18). -/
theorem statusWord_getLsbD (s : State) (k : Nat) :
    (statusWord s).getLsbD k =
      if k = 0 then s.kvalid else if k = 1 then s.dir
      else if 4 ≤ k ∧ k < 8 then s.err.code.getLsbD (k - 4) else false := by
  simp only [statusWord, BitVec.getLsbD_or, BitVec.getLsbD_shiftLeft, BitVec.getLsbD_setWidth, BitVec.getLsbD_ofBool]
  obtain rfl | rfl | hgap | herr | hhigh : k = 0 ∨ k = 1 ∨ (2 ≤ k ∧ k < 4) ∨ (4 ≤ k ∧ k < 8) ∨ 8 ≤ k := by omega
  · simp
  · simp
  · simp [show k ≠ 0 by omega, show k ≠ 1 by omega, show ¬ 4 ≤ k by omega, show k < 4 by omega, show k - 1 ≠ 0 by omega]
  · simp [herr, show k ≠ 0 by omega, show k ≠ 1 by omega, show ¬ k < 4 by omega, show k - 1 ≠ 0 by omega,
      show k < 64 by omega, show k - 4 < 64 by omega]
  · simp [show k ≠ 0 by omega, show k ≠ 1 by omega, show ¬ k < 8 by omega, show k - 1 ≠ 0 by omega,
      BitVec.getLsbD_of_ge s.err.code (k - 4) (by omega)]

theorem statusWord_errField (s : State) : (statusWord s).extractLsb' 4 4 = s.err.code := by
  apply BitVec.eq_of_getLsbD_eq
  intro k hk
  rw [BitVec.getLsbD_extractLsb', statusWord_getLsbD, if_neg (by omega), if_neg (by omega), if_pos (by omega),
    Nat.add_sub_cancel_left]
  simp [hk]

/-- A field of `STATUS` that meets none of its three is 0. -/
theorem statusWord_zeroField (s : State) {start len : Nat}
    (h : ∀ k < len, start + k ≠ 0 ∧ start + k ≠ 1 ∧ ¬ (4 ≤ start + k ∧ start + k < 8)) :
    (statusWord s).extractLsb' start len = 0 := by
  apply BitVec.eq_of_getLsbD_eq
  intro k hk
  obtain ⟨hkvalid, hdir, herr⟩ := h k hk
  rw [BitVec.getLsbD_extractLsb', statusWord_getLsbD, if_neg hkvalid, if_neg hdir, if_neg herr]
  simp

/-! ### Reversal of the schedule -/

theorem reverseSchedule_getElem (rk : Schedule) {j : Nat} (hj : j < 54) :
    (reverseSchedule rk)[j] = rk[53 - j] := by
  simp [reverseSchedule]

theorem reverseSchedule_reverseSchedule (rk : Schedule) : reverseSchedule (reverseSchedule rk) = rk := by
  ext j hj
  rw [reverseSchedule_getElem _ hj, reverseSchedule_getElem _ (by omega)]
  simp only [show 53 - (53 - j) = j by omega]

theorem swapRoundKeys_getElem (rk : Schedule) {i j : Nat} (hi : i < 54) (hj : j < 54) :
    (swapRoundKeys rk i)[j] = if j = i then rk[53 - i] else if j = 53 - i then rk[i] else rk[j] := by
  have hswap : swapRoundKeys rk i = rk.swap i (53 - i) := by
    simp [swapRoundKeys, Vector.swapIfInBounds, Vector.swap, Array.swapIfInBounds_def, hi, show 53 - i < 54 by omega]
  rw [hswap, Vector.getElem_swap]

/-- After `n` swaps the outer `n` round keys at either end have changed places and the inner ones stand. -/
theorem swaps_getElem (rk : Schedule) {n j : Nat} (hn : n ≤ 27) (hj : j < 54) :
    ((List.range n).foldl swapRoundKeys rk)[j] = if j < n ∨ 53 - j < n then rk[53 - j] else rk[j] := by
  induction n generalizing j with
  | zero => simp
  | succ n ih =>
    rw [List.range_succ, List.foldl_append, List.foldl_cons, List.foldl_nil, swapRoundKeys_getElem _ (by omega) hj]
    by_cases hleft : j = n
    · subst hleft
      rw [if_pos rfl, ih (by omega) (by omega), if_neg (by omega), if_pos (by omega)]
    · by_cases hright : j = 53 - n
      · subst hright
        rw [if_neg hleft, if_pos rfl, ih (by omega) (by omega), if_neg (by omega), if_pos (by omega)]
        simp only [show 53 - (53 - n) = n by omega]
      · rw [if_neg hleft, if_neg hright, ih (by omega) hj]
        exact if_congr (by omega) rfl rfl

/-- The 27 swaps of 43_key_schedule.md R80 are the reversal of R75. -/
theorem reverseInPlace_eq (rk : Schedule) : reverseInPlace rk = reverseSchedule rk := by
  ext j hj
  rw [reverseSchedule_getElem rk hj, reverseInPlace, swaps_getElem rk le_rfl hj, if_pos (by omega)]

/-! ### The schedule and the key -/

theorem scheduleMatchesKey_of_invalid {s : State} (h : s.kvalid = false) : ScheduleMatchesKey s := by
  simp [ScheduleMatchesKey, h]

/-- The invariant of 10_state.md R30 speaks of the key, the schedule and its two flags only. -/
theorem ScheduleMatchesKey.congr {s t : State} (h : ScheduleMatchesKey s) (hkey0 : t.key0 = s.key0)
    (hkey1 : t.key1 = s.key1) (hrk : t.rk = s.rk) (hdir : t.dir = s.dir) (hkvalid : t.kvalid = s.kvalid) :
    ScheduleMatchesKey t := by
  simpa only [ScheduleMatchesKey, hkey0, hkey1, hrk, hdir, hkvalid] using h

theorem kexpE_matches (s : State) (k : BitVec 6) :
    ScheduleMatchesKey (setSchedule (keySchedule s.key0 s.key1) false k s) := by
  simp [ScheduleMatchesKey]

theorem kexpD_matches (s : State) (k : BitVec 6) :
    ScheduleMatchesKey (setSchedule (reverseSchedule (keySchedule s.key0 s.key1)) true k s) := by
  simp [ScheduleMatchesKey]

/-- Reversing a schedule that matches the key, and inverting `DIR`, gives one that matches (43_key_schedule.md R80). -/
theorem krev_matches {s : State} (h : ScheduleMatchesKey s) (hv : s.kvalid = true) (k : BitVec 6) :
    ScheduleMatchesKey (setSchedule (reverseInPlace s.rk) (!s.dir) k s) := by
  obtain ⟨hencrypt, hdecrypt⟩ := h
  rw [reverseInPlace_eq]
  cases hd : s.dir with
  | false => simp [ScheduleMatchesKey, hencrypt hv hd]
  | true => simp [ScheduleMatchesKey, hdecrypt hv hd, reverseSchedule_reverseSchedule]

/-- A command keeps what its effect keeps. -/
theorem command_keeps {P : State → Prop} {f : State → State} {s t : State} (hs : P s)
    (hf : P (f s)) (h : command s f = .next t) : P t := by
  obtain ⟨-, rfl⟩ | ⟨-, rfl⟩ := command_cases h
  · exact hf
  · exact hs

/-- Every command keeps the invariant of 10_state.md R30. -/
theorem exec_keeps_schedule {i : Instr} {s t : State} (hs : ScheduleMatchesKey s) (h : exec i s = .next t) :
    ScheduleMatchesKey t := by
  by_cases hi : i = .kexpE ∨ i = .kexpD ∨ i = .krev
  · obtain rfl | rfl | rfl := hi
    · rw [exec_kexpE] at h
      refine command_keeps hs ?_ h
      exact kexpE_matches s _
    · rw [exec_kexpD] at h
      refine command_keeps hs ?_ h
      exact kexpD_matches s _
    · rw [exec_krev] at h
      refine command_keeps hs ?_ h
      split
      next hv => exact krev_matches hs hv _
      next => exact hs.congr (raise_key0 ..) (raise_key1 ..) (raise_rk ..) (raise_dir ..) (raise_kvalid ..)
  · obtain ⟨hE, hD, hR⟩ : i ≠ .kexpE ∧ i ≠ .kexpD ∧ i ≠ .krev := by simpa using hi
    have hrow := writesItsRow_of_exec h
    obtain ⟨hrk, hdir⟩ := hrow.schedule ⟨hE, hD, hR⟩
    exact hs.congr hrow.key0 hrow.key1 hrk hdir (hrow.kvalid ⟨hE, hD⟩)

/-! ### Where ECB stores -/

/-- Every output block of the Buffer lies in the address space. -/
def TargetsInSpace (s : State) : Prop :=
  ∀ k, k < (blockCount s).toNat → blockTarget s k + 16 ≤ Config.addressEnd

theorem blockCount_toNat (s : State) : (blockCount s).toNat = s.len.toNat / 16 := by
  have := s.len.isLt
  simp only [blockCount, BitVec.extractLsb'_toNat, Nat.shiftRight_eq_div_pow]
  omega

/-- Where `ECB` raises nothing and has bytes to process, neither Buffer passes the top (20_memory.md R39). -/
theorem passesTop_of_ecbError {s : State} (h : ecbError s = .noError) (hlen : s.len.toNat ≠ 0) :
    passesTop s.src.toNat s.len.toNat = false ∧ passesTop s.dst.toNat s.len.toNat = false := by
  unfold ecbError at h
  dsimp only at h
  split_ifs at h with hkey hwhole hrange
  all_goals simpa using hrange

/-- The range check of `ECB` keeps its stores in the address space (20_memory.md R39). -/
theorem targetsInSpace_of_ecbError {s : State} (h : ecbError s = .noError) : TargetsInSpace s := by
  intro k hk
  rw [blockCount_toNat] at hk
  obtain ⟨-, htop⟩ := passesTop_of_ecbError h (by omega)
  have hend : s.dst.toNat + s.len.toNat ≤ Config.addressEnd := by simpa [passesTop] using htop
  unfold blockTarget
  omega

/-- The block loop of `ECB` keeps the canonical form of the memory. -/
theorem ecbBlocks_wf {s : State} (hm : Memory.wf s.mem = true) (hT : TargetsInSpace s) {n : Nat}
    (hn : n ≤ (blockCount s).toNat) : Memory.wf ((List.range n).foldl ecbBlock s).mem = true := by
  induction n with
  | zero => exact hm
  | succ n ih =>
    have hdst : ((List.range n).foldl ecbBlock s).dst = s.dst := by rw [ecbBlocks_frame]
    rw [ecbBlocks_succ, ecbBlock_mem]
    refine writeBlock_wf (ih (by omega)) ?_ _
    rw [blockTarget, hdst]
    exact hT n (by omega)

theorem ecbEffect_wf {s : State} (hm : Memory.wf s.mem = true) : Memory.wf (ecbEffect s).mem = true := by
  by_cases hc : ecbError s = .noError
  · rw [ecbEffect_run hc]
    exact ecbBlocks_wf (s := enterBlocks (setNblk 0 s)) hm (targetsInSpace_of_ecbError hc) le_rfl
  · rw [ecbEffect_raise hc]
    exact hm

/-- Every command keeps the canonical form of the memory. -/
theorem exec_keeps_wf {i : Instr} {s t : State} (hm : Memory.wf s.mem = true) (h : exec i s = .next t) :
    Memory.wf t.mem = true := by
  by_cases hi : i = .ecb
  · subst hi
    rw [exec_ecb] at h
    exact command_keeps (P := fun s => Memory.wf s.mem = true) hm (ecbEffect_wf hm) h
  · rw [((writesItsRow_of_exec h).memory hi).2]
    exact hm

theorem exec_keeps_inv {i : Instr} {s t : State} (hs : s.Inv) (h : exec i s = .next t) : t.Inv where
  schedule := exec_keeps_schedule hs.schedule h
  idle := (writesItsRow_of_exec h).idle hs.idle
  memory := exec_keeps_wf hs.memory h

/-! ### A command cut short: the stores of the sequencer -/

/-- The phases of the block loop (45_ecb_controller.md R93). -/
def Phase.inBlockLoop : Phase → Bool
  | .blkLoad | .blkRound | .blkStore => true
  | .idle | .ksSeed | .ksRun | .ksRev | .check => false

/-- What the sequencer keeps while command `i` is in progress, so that whatever `ECB` still stores lands in the address
space: inside its block loop the current block is one of the Buffer's, and all of those lie there. -/
structure StoresInSpace (i : Instr) (s : State) : Prop where
  memory : Memory.wf s.mem = true
  target : i = .ecb → s.seq.phase.inBlockLoop = true →
    s.seq.bi.toNat < (blockCount s).toNat ∧ TargetsInSpace s

/-- Outside the block loop only the memory counts. -/
theorem StoresInSpace.of_outside {i : Instr} {s : State} (hm : Memory.wf s.mem = true)
    (hp : s.seq.phase.inBlockLoop = false) : StoresInSpace i s :=
  ⟨hm, fun _ h => absurd h (by simp [hp])⟩

/-- A command other than `ECB` stores nothing. -/
theorem StoresInSpace.of_ne_ecb {i : Instr} {s : State} (hm : Memory.wf s.mem = true) (hi : i ≠ .ecb) :
    StoresInSpace i s :=
  ⟨hm, fun h => absurd h hi⟩

/-- The head of the block loop goes on only while blocks are left. -/
theorem headOfBlocks_stores {i : Instr} {s : State} (hm : Memory.wf s.mem = true)
    (hbi : s.seq.bi.toNat ≤ (blockCount s).toNat) (hT : TargetsInSpace s) : StoresInSpace i (headOfBlocks s) := by
  unfold headOfBlocks
  split
  next => exact .of_outside hm rfl
  next hne =>
    have hlt : s.seq.bi.toNat < (blockCount s).toNat :=
      lt_of_le_of_ne hbi fun h => hne (BitVec.eq_of_toNat_eq h)
    exact ⟨hm, fun _ _ => ⟨hlt, hT⟩⟩

theorem tickRun_stores {i : Instr} {s : State} (hm : Memory.wf s.mem = true) (hp : s.seq.phase = .ksRun) :
    StoresInSpace i (tickRun i s) := by
  unfold tickRun
  split_ifs
  · exact .of_outside hm (by simp [hp, Phase.inBlockLoop])
  · exact .of_outside hm rfl
  · exact .of_outside hm rfl

theorem tickRev_stores {i : Instr} {s : State} (hm : Memory.wf s.mem = true) (hp : s.seq.phase = .ksRev) :
    StoresInSpace i (tickRev i s) := by
  unfold tickRev
  split_ifs
  · exact .of_outside hm (by simp [hp, Phase.inBlockLoop])
  · exact .of_outside hm rfl
  · exact .of_outside hm rfl

theorem tickCheck_ecb_run {s : State} (h : ecbError s = .noError) :
    tickCheck .ecb s = headOfBlocks (enterBlocks (setNblk 0 s)) := by
  simp [tickCheck, h]

theorem tickCheck_ecb_raise {s : State} (h : ecbError s ≠ .noError) :
    tickCheck .ecb s = raise (ecbError s) (setNblk 0 s) := by
  unfold tickCheck
  cases hc : ecbError s <;> simp_all

/-- `CHECK` lets `ECB` into its block loop only when the range check has passed. -/
theorem tickCheck_stores {i : Instr} {s : State} (hm : Memory.wf s.mem = true) : StoresInSpace i (tickCheck i s) := by
  cases i with
  | ecb =>
    by_cases hc : ecbError s = .noError
    · rw [tickCheck_ecb_run hc]
      exact headOfBlocks_stores hm (Nat.zero_le _) (targetsInSpace_of_ecbError hc)
    · rw [tickCheck_ecb_raise hc]
      exact .of_outside hm rfl
  | krev | blk =>
    refine .of_ne_ecb ?_ (by simp)
    dsimp only [tickCheck]
    split <;> exact hm
  | _ => exact .of_outside hm rfl

/-- The load and the rounds of a block leave the block counter and the Buffers. -/
theorem tickLoad_stores {i : Instr} {s : State} (h : StoresInSpace i s) (hp : s.seq.phase = .blkLoad) :
    StoresInSpace i (tickLoad i s) :=
  ⟨h.memory, fun hi _ => h.target hi (by rw [hp]; rfl)⟩

theorem tickRound_stores {i : Instr} {s : State} (h : StoresInSpace i s) (hp : s.seq.phase = .blkRound) :
    StoresInSpace i (tickRound s) := by
  have ht := fun hi => h.target hi (by rw [hp]; rfl)
  unfold tickRound
  split
  · exact ⟨h.memory, fun hi _ => ht hi⟩
  · exact ⟨h.memory, fun hi _ => ht hi⟩

theorem tickStore_stores {i : Instr} {s : State} (h : StoresInSpace i s) (hp : s.seq.phase = .blkStore) :
    StoresInSpace i (tickStore i s) := by
  unfold tickStore
  split
  next hi =>
    obtain ⟨hbi, hT⟩ := h.target hi (by rw [hp]; rfl)
    refine headOfBlocks_stores (writeBlock_wf h.memory (hT _ hbi) _) ?_ hT
    change (s.seq.bi + 1).toNat ≤ (blockCount s).toNat
    have := (blockCount s).isLt
    rw [BitVec.toNat_add_of_lt (by simp; omega)]
    exact hbi
  next => exact .of_outside h.memory rfl

/-- Every iteration of the sequencer stores in the address space. -/
theorem tick_stores {i : Instr} {s : State} (h : StoresInSpace i s) : StoresInSpace i (tick i s) := by
  unfold tick
  split
  next => exact h
  next => exact .of_outside h.memory rfl
  next hp => exact tickRun_stores h.memory hp
  next hp => exact tickRev_stores h.memory hp
  next => exact tickCheck_stores h.memory
  next hp => exact tickLoad_stores h hp
  next hp => exact tickRound_stores h hp
  next hp => exact tickStore_stores h hp

theorem ticks_stores {i : Instr} {n : Nat} {s : State} (h : StoresInSpace i s) : StoresInSpace i (ticks i n s) := by
  induction n generalizing s with
  | zero => exact h
  | succ n ih => exact ih (tick_stores h)

theorem exec_eq_stateAfter (i : Instr) (s : State) : exec i s = .next (stateAfter s (exec i s)) := by
  obtain ⟨t, ht, -⟩ := exec_writesItsRow i s
  rw [ht]
  rfl

/-- A command starts at most into a phase before its block loop; one without loops is done at once. -/
theorem startCommand_cases (i : Instr) (s : State) :
    startCommand i s = s ∨ startCommand i s = enterPhase .ksSeed s ∨ startCommand i s = enterPhase .check s
      ∨ (i ≠ .ecb ∧ exec i s = .next (startCommand i s)) := by
  cases i with
  | kexpE | kexpD | krev | blk | ecb => by_cases he : s.err = .noError <;> simp [startCommand, he]
  | _ => exact .inr (.inr (.inr ⟨by simp, exec_eq_stateAfter _ s⟩))

theorem startCommand_stores {i : Instr} {s : State} (hs : s.Inv) : StoresInSpace i (startCommand i s) := by
  obtain h | h | h | ⟨hi, h⟩ := startCommand_cases i s
  · rw [h]
    exact .of_outside hs.memory (by rw [hs.idle]; rfl)
  · rw [h]
    exact .of_outside hs.memory rfl
  · rw [h]
    exact .of_outside hs.memory rfl
  · exact .of_ne_ecb (exec_keeps_wf hs.memory h) hi

/-- A command abandoned at any iteration, with its store cut in half or not, leaves the memory in canonical form
(70_reset_and_hazards.md R112). -/
theorem abandonAfter_wf {i : Instr} {n : Nat} {half : Bool} {s : State} (hs : s.Inv) :
    Memory.wf (abandonAfter i n half s).mem = true := by
  have h : StoresInSpace i (ticks i n (startCommand i s)) := ticks_stores (startCommand_stores hs)
  unfold abandonAfter
  dsimp only
  split
  next hcut =>
    obtain ⟨-, hi, hp⟩ := hcut
    obtain ⟨hbi, hT⟩ := h.target hi (by rw [hp]; rfl)
    exact writeWord_wf h.memory (by have := hT _ hbi; omega) _
  next => exact h.memory

/-! ### The invariant, event by event -/

theorem applyReset_inv {s : State} (hm : Memory.wf s.mem = true) : (applyReset s).Inv where
  schedule := scheduleMatchesKey_of_invalid rfl
  idle := rfl
  memory := hm

theorem resetInside_inv {v : Word} {n : Nat} {half : Bool} {s : State} (hs : s.Inv) : (resetInside v n half s).Inv := by
  have hstop {t : State} (hm : Memory.wf t.mem = true) : State.Inv { applyReset t with hung := true } :=
    ⟨scheduleMatchesKey_of_invalid rfl, rfl, hm⟩
  unfold resetInside
  split
  next => exact hstop (abandonAfter_wf hs)
  next => exact hstop hs.memory

theorem runCommand_keeps_inv {v : Word} {s t : State} (hs : s.Inv) (h : runCommand v s = .next t) : t.Inv := by
  obtain ⟨i, -, hr⟩ | ⟨r, -, hr⟩ := runCommand_cases v s
  · exact exec_keeps_inv hs (hr ▸ h)
  · refine command_keeps hs ?_ (hr ▸ h)
    exact ⟨hs.schedule, rfl, hs.memory⟩

/-- A key write makes the schedule invalid; every other register write leaves it and its key (10_state.md R27). -/
theorem setRegister_inv {s : State} (hs : s.Inv) (r : Reg) (v : Word) : (setRegister r v s).Inv := by
  cases r with
  | key0 => exact ⟨scheduleMatchesKey_of_invalid rfl, hs.idle, hs.memory⟩
  | key1 => exact ⟨scheduleMatchesKey_of_invalid rfl, hs.idle, hs.memory⟩
  | _ => exact ⟨hs.schedule, hs.idle, hs.memory⟩

theorem writeRegister_keeps_inv {n : BitVec 8} {v : Word} {s t : State} (hs : s.Inv)
    (h : writeRegister n v s = .next t) : t.Inv := by
  obtain ⟨-, hw⟩ | ⟨r, -, -, hw⟩ | ⟨-, hw⟩ := writeRegister_cases n v s
  · exact runCommand_keeps_inv hs (hw ▸ h)
  · rw [hw] at h
    cases h
    exact setRegister_inv hs r v
  · rw [hw] at h
    cases h
    exact hs

theorem placeByte_keeps_inv {a : Word} {b : Byte} {s t : State} (hs : s.Inv) (h : placeByte a b s = .next t) :
    t.Inv := by
  obtain ⟨-, hp⟩ | ⟨-, hp⟩ := placeByte_cases a b s
  · rw [hp] at h
    cases h
    exact ⟨hs.schedule, hs.idle, writeByte_wf hs.memory a.isLt b⟩
  · rw [hp] at h
    cases h

theorem observe_inv {s : State} (hs : s.Inv) (o : Observation) : (observe o s).Inv :=
  ⟨hs.schedule, hs.idle, hs.memory⟩

theorem inspectByte_keeps_inv {a : Word} {s t : State} (hs : s.Inv) (h : inspectByte a s = .next t) : t.Inv := by
  obtain ⟨-, hp⟩ | ⟨-, hp⟩ := inspectByte_cases a s
  · rw [hp] at h
    cases h
    exact observe_inv hs _
  · rw [hp] at h
    cases h

/-- Every event keeps the invariant. -/
theorem perform_keeps_inv {e : Event} {s t : State} (hs : s.Inv) (h : perform e s = .next t) : t.Inv := by
  cases e with
  | regWrite n v => exact writeRegister_keeps_inv hs h
  | regRead n => cases h; exact observe_inv hs _
  | memPlace a b => exact placeByte_keeps_inv hs h
  | memInspect a => exact inspectByte_keeps_inv hs h
  | reset => cases h; exact applyReset_inv hs.memory
  | resetInside v n half => cases h; exact resetInside_inv hs

/-! ### The statements -/

/-- Settles O57. -/
theorem resetMeetsTheInvariant : Obligations.ResetMeetsTheInvariant :=
  ⟨scheduleMatchesKey_of_invalid rfl, rfl, reset_memory_wf⟩

/-- Settles O58: every event keeps the invariant, and taking it off the script touches no part of it. -/
theorem everyStepKeepsTheInvariant : Obligations.EveryStepKeepsTheInvariant := by
  intro s t hs h
  obtain ⟨-, ⟨-, rfl⟩ | ⟨e, rest, -, hp⟩⟩ := step_cases h
  · exact hs
  · exact perform_keeps_inv (s := { s with script := rest }) ⟨hs.schedule, hs.idle, hs.memory⟩ hp

/-- Settles O45, by the kind of the event. -/
theorem kvalidFollowsTheLatestKeyEvent : Obligations.KvalidFollowsTheLatestKeyEvent := by
  intro s t e rest hh hs h
  rw [step_perform hh hs] at h
  cases e with
  | regWrite n v => exact writeRegister_kvalid (s := { s with script := rest }) h
  | regRead n => cases h; rfl
  | memPlace a b =>
    obtain ⟨-, hp⟩ | ⟨-, hp⟩ := placeByte_cases a b { s with script := rest }
    · cases hp.symm.trans h
      rfl
    · cases hp.symm.trans h
  | memInspect a =>
    obtain ⟨-, hp⟩ | ⟨-, hp⟩ := inspectByte_cases a { s with script := rest }
    · cases hp.symm.trans h
      rfl
    · cases hp.symm.trans h
  | reset => cases h; rfl
  | resetInside v n half =>
    cases h
    simp only [resetInside]
    split <;> rfl

/-- Settles O54: the control state right after reset, and its reads by the registers' names. -/
theorem resetLeavesTheControlState : Obligations.ResetLeavesTheControlState :=
  ⟨⟨rfl, rfl, rfl, rfl, rfl⟩, by decide, by decide, by decide, by decide⟩

/-- Settles O46: the rows of all commands, from `exec_writesItsRow`. -/
theorem commandsWriteOnlyTheirRegisters : Obligations.CommandsWriteOnlyTheirRegisters := by
  intro i s
  obtain ⟨t, ht, hrow⟩ := exec_writesItsRow i s
  exact ⟨t, ht, hrow.key0, hrow.key1, hrow.src, hrow.dst, hrow.len, hrow.opa, hrow.absent, hrow.script, hrow.observed,
    hrow.hung, hrow.freeCount, hrow.idle, hrow.schedule, hrow.kvalid, hrow.block, hrow.memory, hrow.result, hrow.error⟩

/-- Settles O41: each number is its register's, and `RegRead` observes what it returns. -/
theorem registerReads : Obligations.RegisterReads := by
  refine ⟨fun s => ?_, fun s n rest hh hs => step_perform hh hs⟩
  have hreg (r : Reg) : readRegister (regNumber r) s = regValue s r := readRegister_regNumber r s
  exact ⟨hreg .key0, hreg .key1, hreg .blk0, hreg .blk1, hreg .src, hreg .dst, hreg .len, hreg .opa, hreg .res,
    hreg .cmd, hreg .status, hreg .id, hreg .nblk, fun i h => hreg (.rk ⟨i, h⟩)⟩

/-- Settles O43: the registers one by one, by the register a number selects. -/
theorem registerWrites : Obligations.RegisterWrites := by
  intro s n v rest hh hs
  have hwrite {r : Reg} (hr : r ≠ .cmd) (hn : n = regNumber r) :
      step s = .next (setRegister r v { s with script := rest }) := by
    rw [step_perform hh hs]
    exact writeRegister_of_regOf (regOf_eq_some_iff.2 hn) hr v _
  refine ⟨hwrite (r := .key0) (by decide), hwrite (r := .key1) (by decide), hwrite (r := .blk0) (by decide),
    hwrite (r := .blk1) (by decide), hwrite (r := .src) (by decide), hwrite (r := .dst) (by decide),
    hwrite (r := .len) (by decide), hwrite (r := .opa) (by decide), ?_⟩
  rintro (hn | hn | hn | hn | hn)
  · exact hwrite (r := .res) (by decide) hn
  · exact hwrite (r := .status) (by decide) hn
  · exact hwrite (r := .id) (by decide) hn
  · exact hwrite (r := .nblk) (by decide) hn
  · exact hwrite (by simp) (regOf_eq_some_iff.1 (regOf_roundKey hn))

/-- Settles O44: a reserved number selects no register. -/
theorem reservedRegistersHaveNoEffect : Obligations.ReservedRegistersHaveNoEffect := by
  intro s n hn hh
  have hr := regOf_reserved hn
  constructor
  · intro v rest hs
    rw [step_perform hh hs]
    exact writeRegister_reserved hr v _
  · intro rest hs
    rw [step_perform hh hs, perform, readRegister_reserved hr]
    rfl

/-- Settles O42: `STATUS` bit by bit, `ID` and the codes by evaluation. -/
theorem statusAndIdLayout : Obligations.StatusAndIdLayout := by
  refine ⟨fun s => ⟨?_, ?_, ?_, statusWord_errField s, ?_, s.err.code_le, s.err.eq_noError_iff⟩, ?_, fun s => rfl, ?_⟩
  · rw [statusWord_getLsbD, if_pos rfl]
  · rw [statusWord_getLsbD, if_neg (by decide), if_pos rfl]
  · exact statusWord_zeroField s fun k hk => by omega
  · exact statusWord_zeroField s fun k hk => by omega
  · decide
  · decide

end Sys2Proof.Machine
end

section
/-! SUPPORT and the settled statements about Buffers and Words in memory (20_memory.md). First the bytes of a Word, then
what a Word and a block store, byte by byte, then what the block loop of `ECB` leaves in memory, whatever its order; last
the statements themselves. -/

namespace Sys2Proof.Machine

/-! ### The bytes of a Word -/

theorem byteOf_getLsbD (w : Word) (k i : Nat) : (byteOf w k).getLsbD i = (decide (i < 8) && w.getLsbD (8 * k + i)) := by
  simp [byteOf]

/-- A Word is its eight bytes (00_scope.md R7). -/
theorem word_ext_of_bytes {v w : Word} (h : ∀ k, k < 8 → byteOf v k = byteOf w k) : v = w := by
  refine BitVec.eq_of_getLsbD_eq fun i hi => ?_
  have hbit := congrArg (BitVec.getLsbD · (i % 8)) (h (i / 8) (by omega))
  simpa only [byteOf_getLsbD, Nat.mod_lt i (show 8 > 0 by decide), Nat.div_add_mod, decide_true, Bool.true_and] using hbit

/-- The Word put together from the bytes `f 0` to `f (n - 1)`, byte 0 the least significant. -/
def packBytes (f : Nat → Byte) (n : Nat) : Word :=
  (List.range n).foldl (fun w k => w ||| ((f k).setWidth 64 <<< (8 * k))) 0

theorem packBytes_succ (f : Nat → Byte) (n : Nat) :
    packBytes f (n + 1) = packBytes f n ||| ((f n).setWidth 64 <<< (8 * n)) := by
  simp [packBytes, List.range_succ]

theorem readWord_eq_packBytes (m : Memory) (a : Nat) : readWord m a = packBytes (fun k => readByte m (a + k)) 8 := rfl

/-- Bit `i` of the packed Word is bit `i % 8` of byte `i / 8`; above the bytes packed so far there are zeros. -/
theorem packBytes_getLsbD (f : Nat → Byte) (n : Nat) {i : Nat} (hi : i < 64) :
    (packBytes f n).getLsbD i = (decide (i < 8 * n) && (f (i / 8)).getLsbD (i % 8)) := by
  induction n with
  | zero => simp [packBytes]
  | succ n ih =>
    rw [packBytes_succ, BitVec.getLsbD_or, ih, BitVec.getLsbD_shiftLeft, BitVec.getLsbD_setWidth]
    rcases Nat.lt_or_ge i (8 * n) with hlow | hhigh
    · simp [hlow, show i < 8 * (n + 1) by omega]
    · rcases Nat.lt_or_ge i (8 * (n + 1)) with hbyte | habove
      · obtain ⟨hdiv, hmod⟩ : i / 8 = n ∧ i % 8 = i - 8 * n := by omega
        simp [hi, hbyte, hdiv, hmod, show ¬ i < 8 * n by omega, show i - 8 * n < 64 by omega]
      · simp [BitVec.getLsbD_of_ge (f n) (i - 8 * n) (by omega), show ¬ i < 8 * n by omega,
          show ¬ i < 8 * (n + 1) by omega]

/-- Byte `k` of the Word read is the byte at `a + k` (20_memory.md R33). -/
theorem byteOf_readWord (m : Memory) (a : Nat) {k : Nat} (hk : k < 8) : byteOf (readWord m a) k = readByte m (a + k) := by
  refine BitVec.eq_of_getLsbD_eq fun i hi => ?_
  obtain ⟨hdiv, hmod⟩ : (8 * k + i) / 8 = k ∧ (8 * k + i) % 8 = i := by omega
  rw [byteOf_getLsbD, readWord_eq_packBytes, packBytes_getLsbD _ _ (by omega), hdiv, hmod]
  simp [hi, show 8 * k + i < 8 * 8 by omega]

/-- A Word read depends on its eight bytes alone. -/
theorem readWord_congr {m m' : Memory} {a : Nat} (h : ∀ k, k < 8 → readByte m (a + k) = readByte m' (a + k)) :
    readWord m a = readWord m' a :=
  word_ext_of_bytes fun k hk => by rw [byteOf_readWord m a hk, byteOf_readWord m' a hk, h k hk]

/-! ### Rising lists

`writeWord` takes any natural address, and a byte stored at `2 ^ 64` or above ends the canonical form. What a later read
needs is the rising order of the list alone, which every store keeps. -/

/-- The listed addresses rise strictly. -/
def Memory.Rising (m : Memory) : Prop := m.Pairwise (fun c d => c.1 < d.1)

theorem le_of_mem_of_wfFrom {low : Nat} {m : Memory} (hm : memoryWfFrom low m = true) : ∀ c ∈ m, low ≤ c.1 := by
  induction m generalizing low with
  | nil => simp
  | cons c rest ih =>
    obtain ⟨hlow, -, -, hrest⟩ := (memoryWfFrom_cons ..).1 hm
    rintro d (_ | ⟨_, hd⟩)
    · exact hlow
    · have := ih hrest d hd
      omega

theorem rising_of_wfFrom {low : Nat} {m : Memory} (hm : memoryWfFrom low m = true) : Memory.Rising m := by
  induction m generalizing low with
  | nil => exact List.Pairwise.nil
  | cons c rest ih =>
    obtain ⟨-, -, -, hrest⟩ := (memoryWfFrom_cons ..).1 hm
    exact List.Pairwise.cons (fun d hd => le_of_mem_of_wfFrom hrest d hd) (ih hrest)

theorem rising_of_wf {m : Memory} (hm : Memory.wf m = true) : Memory.Rising m := rising_of_wfFrom hm

theorem readByte_of_not_listed {m : Memory} {a : Nat} (h : ∀ c ∈ m, c.1 ≠ a) : readByte m a = unlistedByte := by
  induction m with
  | nil => rfl
  | cons c rest ih =>
    obtain ⟨hc, hrest⟩ := List.forall_mem_cons.1 h
    simpa [readByte, hc.symm] using ih hrest

theorem dropCell_sublist (m : Memory) (a : Nat) : (dropCell m a).Sublist m := by
  induction m with
  | nil => exact List.Sublist.refl _
  | cons c rest ih =>
    unfold dropCell
    split_ifs
    · exact List.sublist_cons_self ..
    · exact List.Sublist.refl _
    · exact ih.cons_cons _

theorem mem_putCell {m : Memory} {a : Nat} {w : Byte} {c : Host.Cell} (h : c ∈ putCell m a w) : c = (a, w) ∨ c ∈ m := by
  induction m with
  | nil => exact .inl (by simpa [putCell] using h)
  | cons d rest ih =>
    unfold putCell at h
    split_ifs at h
    · exact (List.mem_cons.1 h).imp_right (List.mem_cons_of_mem _)
    · exact List.mem_cons.1 h
    · obtain rfl | hc := List.mem_cons.1 h
      · exact .inr (List.mem_cons_self ..)
      · exact (ih hc).imp_right (List.mem_cons_of_mem _)

theorem putCell_rising {m : Memory} (hm : Memory.Rising m) (a : Nat) (w : Byte) : Memory.Rising (putCell m a w) := by
  induction m with
  | nil => exact List.pairwise_singleton ..
  | cons d rest ih =>
    obtain ⟨hd, hrest⟩ := List.pairwise_cons.1 hm
    unfold putCell
    split_ifs with heq hlt
    · subst heq
      exact List.Pairwise.cons hd hrest
    · exact List.Pairwise.cons (List.forall_mem_cons.2 ⟨hlt, fun c hc => hlt.trans (hd c hc)⟩) hm
    · refine List.Pairwise.cons (fun c hc => ?_) (ih hrest)
      obtain rfl | hc := mem_putCell hc
      · show d.1 < a
        omega
      · exact hd c hc

theorem writeByte_rising {m : Memory} (hm : Memory.Rising m) (a : Nat) (w : Byte) : Memory.Rising (writeByte m a w) := by
  unfold writeByte
  split
  · exact List.Pairwise.sublist (dropCell_sublist m a) hm
  · exact putCell_rising hm a w

theorem readByte_dropCell_of_rising {m : Memory} (hm : Memory.Rising m) (a : Nat) :
    readByte (dropCell m a) a = unlistedByte := by
  induction m with
  | nil => rfl
  | cons d rest ih =>
    obtain ⟨hd, hrest⟩ := List.pairwise_cons.1 hm
    unfold dropCell
    split_ifs with heq hlt
    · subst heq
      exact readByte_of_not_listed fun c hc => (hd c hc).ne'
    · exact readByte_of_not_listed (List.forall_mem_cons.2 ⟨Ne.symm heq, fun c hc => (hlt.trans (hd c hc)).ne'⟩)
    · simpa [readByte, heq] using ih hrest

/-- A byte written reads back, at every address. -/
theorem readByte_writeByte_of_rising {m : Memory} (hm : Memory.Rising m) (a : Nat) (w : Byte) :
    readByte (writeByte m a w) a = w := by
  unfold writeByte
  split
  next h => rw [readByte_dropCell_of_rising hm, h]
  next => simp [readByte_putCell]

/-! ### What a Word and a block store -/

/-- The first `n` byte stores of `MemWrite`. -/
def storeBytes (m : Memory) (a : Nat) (w : Word) (n : Nat) : Memory :=
  (List.range n).foldl (fun m k => writeByte m (a + k) (byteOf w k)) m

theorem writeWord_eq_storeBytes (m : Memory) (a : Nat) (w : Word) : writeWord m a w = storeBytes m a w 8 := rfl

theorem storeBytes_succ (m : Memory) (a : Nat) (w : Word) (n : Nat) :
    storeBytes m a w (n + 1) = writeByte (storeBytes m a w n) (a + n) (byteOf w n) := by
  simp [storeBytes, List.range_succ]

theorem storeBytes_rising {m : Memory} (hm : Memory.Rising m) (a : Nat) (w : Word) (n : Nat) :
    Memory.Rising (storeBytes m a w n) := by
  induction n with
  | zero => exact hm
  | succ n ih =>
    rw [storeBytes_succ]
    exact writeByte_rising ih _ _

theorem readByte_storeBytes_outside (m : Memory) {a b n : Nat} (w : Word) (h : ¬ InRegion a n b) :
    readByte (storeBytes m a w n) b = readByte m b := by
  unfold InRegion at h
  induction n with
  | zero => rfl
  | succ n ih => rw [storeBytes_succ, readByte_writeByte_ne _ _ (by omega), ih (by omega)]

theorem readByte_storeBytes {m : Memory} (hm : Memory.Rising m) (a : Nat) (w : Word) {n k : Nat} (hk : k < n) :
    readByte (storeBytes m a w n) (a + k) = byteOf w k := by
  induction n with
  | zero => omega
  | succ n ih =>
    rw [storeBytes_succ]
    obtain rfl | hlt : k = n ∨ k < n := by omega
    · exact readByte_writeByte_of_rising (storeBytes_rising hm a w k) _ _
    · rw [readByte_writeByte_ne _ _ (by omega), ih hlt]

theorem writeWord_rising {m : Memory} (hm : Memory.Rising m) (a : Nat) (w : Word) : Memory.Rising (writeWord m a w) :=
  storeBytes_rising hm a w 8

/-- A Word stored changes its eight bytes only, in every memory. -/
theorem readByte_writeWord_outside (m : Memory) {a b : Nat} (w : Word) (h : ¬ InRegion a 8 b) :
    readByte (writeWord m a w) b = readByte m b := readByte_storeBytes_outside m w h

theorem readByte_writeWord {m : Memory} (hm : Memory.Rising m) (a : Nat) (w : Word) {k : Nat} (hk : k < 8) :
    readByte (writeWord m a w) (a + k) = byteOf w k := readByte_storeBytes hm a w hk

theorem readWord_writeWord {m : Memory} (hm : Memory.Rising m) (a : Nat) (w : Word) :
    readWord (writeWord m a w) a = w :=
  word_ext_of_bytes fun k hk => by rw [byteOf_readWord _ _ hk, readByte_writeWord hm a w hk]

/-- Byte `k` of a block: bytes 0 to 7 are word0's, 8 to 15 word1's (20_memory.md R34). -/
def blockByte (o : Word × Word) (k : Nat) : Byte := if k < 8 then byteOf o.1 k else byteOf o.2 (k - 8)

/-- A block stored changes its sixteen bytes only, in every memory. -/
theorem readByte_writeBlock_outside (m : Memory) {a b : Nat} (o : Word × Word) (h : ¬ InRegion a 16 b) :
    readByte (writeBlock m a o) b = readByte m b := by
  unfold InRegion at h
  rw [writeBlock, readByte_writeWord_outside _ _ (by unfold InRegion; omega),
    readByte_writeWord_outside _ _ (by unfold InRegion; omega)]

theorem readByte_writeBlock {m : Memory} (hm : Memory.Rising m) (a : Nat) (o : Word × Word) {k : Nat} (hk : k < 16) :
    readByte (writeBlock m a o) (a + k) = blockByte o k := by
  unfold writeBlock blockByte
  split
  next hlow =>
    rw [readByte_writeWord_outside _ _ (by unfold InRegion; omega), readByte_writeWord hm a o.1 hlow]
  next hhigh =>
    rw [show a + k = a + 8 + (k - 8) by omega]
    exact readByte_writeWord (writeWord_rising hm a o.1) _ _ (by omega)

/-- A block read depends on its sixteen bytes alone. -/
theorem readBlock_congr {m m' : Memory} {a : Nat} (h : ∀ b, InRegion a 16 b → readByte m b = readByte m' b) :
    readBlock m a = readBlock m' a := by
  unfold InRegion at h
  have h0 : readWord m a = readWord m' a := readWord_congr fun k hk => h _ (by omega)
  have h1 : readWord m (a + 8) = readWord m' (a + 8) := readWord_congr fun k hk => h _ (by omega)
  rw [readBlock, readBlock, h0, h1]

/-! ### The block loop of ECB, in any order -/

/-- What block `i` of the input Buffer becomes. -/
def blockOutput (s : State) (i : Nat) : Word × Word := transformBlock s.rk (readBlock s.mem (blockSource s i))

@[simp] theorem blockTarget_ecbBlock (s : State) (i j : Nat) : blockTarget (ecbBlock s i) j = blockTarget s j := rfl

theorem ecbBlock_allowed {s : State} (h : EcbAllowed s) (i : Nat) : EcbAllowed (ecbBlock s i) :=
  ⟨h.schedule, h.wholeBlocks, h.belowTop, h.sameOrApart, h.present⟩

/-- An allowed `ECB` stores inside the address space (20_memory.md R39). -/
theorem blockTarget_inSpace {s : State} (h : EcbAllowed s) {i : Nat} (hi : i < s.len.toNat / 16) :
    blockTarget s i + 16 ≤ Config.addressEnd := by
  have := h.belowTop (by omega)
  unfold blockTarget Config.addressEnd
  omega

theorem blockTargets_apart {s : State} {i j a : Nat} (hij : j ≠ i) (ha : InRegion (blockTarget s i) 16 a) :
    ¬ InRegion (blockTarget s j) 16 a := by
  unfold InRegion blockTarget at *
  omega

/-- An output block meets no input block but its own: the Buffers are identical or apart (20_memory.md R40). -/
theorem blockSource_apart {s : State} (h : EcbAllowed s) {i j a : Nat} (hi : i < s.len.toNat / 16)
    (hj : j < s.len.toNat / 16) (hij : i ≠ j) (ha : InRegion (blockSource s j) 16 a) :
    ¬ InRegion (blockTarget s i) 16 a := by
  have hapart := (h.sameOrApart (by omega)).imp_left (congrArg BitVec.toNat)
  unfold InRegion blockSource blockTarget at *
  omega

/-- Processing one block leaves what every other block becomes. -/
theorem blockOutput_ecbBlock {s : State} (h : EcbAllowed s) {i j : Nat} (hi : i < s.len.toNat / 16)
    (hj : j < s.len.toNat / 16) (hij : i ≠ j) : blockOutput (ecbBlock s i) j = blockOutput s j := by
  have hread : readBlock (ecbBlock s i).mem (blockSource s j) = readBlock s.mem (blockSource s j) :=
    readBlock_congr fun a ha => readByte_writeBlock_outside _ _ (blockSource_apart h hi hj hij ha)
  exact congrArg (transformBlock s.rk) hread

/-- What the memory `m` holds when the blocks of `l` have been processed from state `s`, said without an order. -/
structure HoldsBlocks (s : State) (l : List Nat) (m : Memory) : Prop where
  canonical : Memory.wf m = true
  stored : ∀ i ∈ l, ∀ k, k < 16 → readByte m (blockTarget s i + k) = blockByte (blockOutput s i) k
  kept : ∀ a, (∀ i ∈ l, ¬ InRegion (blockTarget s i) 16 a) → readByte m a = readByte s.mem a

/-- The block loop over distinct block indices, in the order of `l`. -/
theorem ecbBlocks_hold {s : State} {l : List Nat} (hm : Memory.wf s.mem = true) (h : EcbAllowed s) (hl : l.Nodup)
    (hlen : ∀ i ∈ l, i < s.len.toNat / 16) : HoldsBlocks s l (l.foldl ecbBlock s).mem := by
  induction l generalizing s with
  | nil => exact ⟨hm, by simp, fun a _ => rfl⟩
  | cons i rest ih =>
    obtain ⟨hi, hrest⟩ := List.forall_mem_cons.1 hlen
    obtain ⟨hnew, hnodup⟩ := List.nodup_cons.1 hl
    have hmem : Memory.wf (ecbBlock s i).mem = true := writeBlock_wf hm (blockTarget_inSpace h hi) _
    have hdone := ih hmem (ecbBlock_allowed h i) hnodup hrest
    refine ⟨hdone.canonical, List.forall_mem_cons.2 ⟨fun k hk => ?_, fun j hj k hk => ?_⟩, fun a ha => ?_⟩
    · have hin : InRegion (blockTarget s i) 16 (blockTarget s i + k) := ⟨by omega, by omega⟩
      have hlater : ∀ j ∈ rest, ¬ InRegion (blockTarget s j) 16 (blockTarget s i + k) :=
        fun j hj => blockTargets_apart (ne_of_mem_of_not_mem hj hnew) hin
      exact (hdone.kept _ hlater).trans (readByte_writeBlock (rising_of_wf hm) _ _ hk)
    · have hij : i ≠ j := (ne_of_mem_of_not_mem hj hnew).symm
      rw [← blockOutput_ecbBlock h hi (hrest j hj) hij]
      exact hdone.stored j hj k hk
    · obtain ⟨hhere, hlater⟩ := List.forall_mem_cons.1 ha
      exact (hdone.kept a hlater).trans (readByte_writeBlock_outside _ _ hhere)

/-- The same blocks leave the same memory. -/
theorem HoldsBlocks.unique {s : State} {l l' : List Nat} {m m' : Memory} (h : HoldsBlocks s l m)
    (h' : HoldsBlocks s l' m') (hl : ∀ i, i ∈ l ↔ i ∈ l') : m = m' := by
  refine memory_ext h.canonical h'.canonical fun a => ?_
  by_cases ha : ∃ i ∈ l, InRegion (blockTarget s i) 16 a
  · obtain ⟨i, hi, hlow, hhigh⟩ := ha
    obtain ⟨k, rfl⟩ := Nat.exists_eq_add_of_le hlow
    rw [h.stored i hi k (by omega), h'.stored i ((hl i).1 hi) k (by omega)]
  · have hout : ∀ i ∈ l, ¬ InRegion (blockTarget s i) 16 a := fun i hi hin => ha ⟨i, hi, hin⟩
    rw [h.kept a hout, h'.kept a fun i hi => hout i ((hl i).2 hi)]

/-! ### The overlap check -/

/-- Two regions of one length share a byte when each starts below the other's end; the byte is the higher start. -/
theorem regions_meet_iff {src dst len : Nat} (hlen : 0 < len) :
    (∃ a, InRegion src len a ∧ InRegion dst len a) ↔ dst < src + len ∧ src < dst + len := by
  unfold InRegion
  constructor
  · rintro ⟨a, hsrc, hdst⟩
    omega
  · intro h
    exact ⟨max src dst, by omega, by omega⟩

/-! ### The statements -/

/-- Settles O52: with the shared byte put in terms of the two starts, both directions are linear arithmetic. -/
theorem overlapCheckIsExact : Obligations.OverlapCheckIsExact := by
  intro src dst len hlen
  rw [regions_meet_iff hlen, partlyOverlap, decide_eq_false_iff_not, decide_eq_true_iff]
  exact ⟨by omega, Iff.rfl⟩

/-- Settles O50: the reads bit by bit, the stores byte by byte from the rising order, which no address ends. -/
theorem wordAccessIsLittleEndian : Obligations.WordAccessIsLittleEndian := by
  refine ⟨fun m a k hk => byteOf_readWord m a hk, fun m a w hm => ⟨fun k hk => ?_, ?_⟩, fun m a b w hb => ?_⟩
  · exact readByte_writeWord (rising_of_wf hm) a w hk
  · exact readWord_writeWord (rising_of_wf hm) a w
  · exact readByte_writeWord_outside m w (by unfold InRegion; omega)

/-- Settles O25: both orders process the same blocks, each once. -/
theorem blockOrderIsNotObservable : Obligations.BlockOrderIsNotObservable := by
  intro s order hm h hperm
  have hrange : ∀ i ∈ List.range (s.len.toNat / 16), i < s.len.toNat / 16 := fun _ => List.mem_range.1
  have horder : ∀ i ∈ order, i < s.len.toNat / 16 := fun i hi => hrange i (hperm.mem_iff.1 hi)
  have hnodup : order.Nodup := hperm.nodup_iff.2 List.nodup_range
  exact (ecbBlocks_hold hm h hnodup horder).unique (ecbBlocks_hold hm h List.nodup_range hrange) fun _ => hperm.mem_iff

end Sys2Proof.Machine
end

section
/-! SUPPORT and the settled statements about the command format, the decoder and a write to `CMD` (30_encoding.md). First
the fields of an encoded command, then the rows of the opcode map put in terms of the encoder, then what a write to `CMD`
does under fail-stop; last the statements themselves. -/

namespace Sys2Proof.Machine

/-! ### The fields of a command word -/

/-- Bits 7:0 of a command's word are its opcode (30_encoding.md R50). -/
@[simp] theorem fieldOpc_encode (i : Instr) : fieldOpc (encode i) = opcodeOf i := by
  apply BitVec.eq_of_getLsbD_eq
  intro k hk
  simp [fieldOpc, encode, hk, show k < 64 by omega]

/-- Bits 13:8 of a command's word are its immediate (30_encoding.md R50). -/
@[simp] theorem fieldImm6_encode (i : Instr) : fieldImm6 (encode i) = immediateOf i := by
  apply BitVec.eq_of_getLsbD_eq
  intro k hk
  simp [fieldImm6, encode, hk, show 8 + k < 64 by omega]

/-- What the model's laws say of each command's word, for all commands at once. -/
theorem encodesItsRow (i : Instr) : Laws.EncodesItsRow.Statement i := by
  cases i with
  | nop => exact Laws.EncodesItsRow.nop
  | kexpE => exact Laws.EncodesItsRow.kexpE
  | kexpD => exact Laws.EncodesItsRow.kexpD
  | krev => exact Laws.EncodesItsRow.krev
  | blk => exact Laws.EncodesItsRow.blk
  | ecb => exact Laws.EncodesItsRow.ecb
  | clrerr => exact Laws.EncodesItsRow.clrerr
  | rotl n => exact Laws.EncodesItsRow.rotl n
  | perm => exact Laws.EncodesItsRow.perm
  | g0 => exact Laws.EncodesItsRow.g0
  | g1 => exact Laws.EncodesItsRow.g1
  | a16x3 => exact Laws.EncodesItsRow.a16x3
  | frnd => exact Laws.EncodesItsRow.frnd

theorem selects_encode (i : Instr) : (rowOf i).selects (encode i) = true := (encodesItsRow i).1

@[simp] theorem fieldZero_encode (i : Instr) : fieldZero (encode i) = 0 := (encodesItsRow i).2

/-- A command's word decodes to the command: `ROTL` by its own opcode, every other by its entry in `fixedCommand` and its
immediate 0 (30_encoding.md R53). -/
theorem decode_encode (i : Instr) : decode (encode i) = .ok i := by
  cases i with
  | rotl n => simp [decode, opcodeOf, immediateOf]
  | _ => rfl

theorem decode_eq_ok_iff {v : Word} {i : Instr} : decode v = .ok i ↔ v = encode i :=
  ⟨eq_encode_of_decode, fun h => h ▸ decode_encode i⟩

/-! ### The rows of the opcode map -/

/-- A row whose mask fixes all 64 bits is selected by its pattern alone. -/
theorem selects_fullMask_iff {name : String} {p v : Word} : (OpcodeRow.mk name p fullMask).selects v = true ↔ v = p := by
  have hmask : v &&& fullMask = v := BitVec.and_allOnes
  simp [OpcodeRow.selects, hmask]

/-- The mask of the row of `ROTL` covers `OPC` and `ZERO`, so that a word that selects it is a `ROTL` of the word's own
`IMM6` (30_encoding.md R51, R52). -/
theorem eq_encode_rotl_of_selects {n : BitVec 6} {v : Word} (h : (rowOf (.rotl n)).selects v = true) :
    v = encode (.rotl (fieldImm6 v)) := by
  have hv : v &&& 0xFFFFFFFFFFFFC0FF = 0x10 := of_decide_eq_true h
  have hzero : fieldZero v = 0 :=
    calc fieldZero v = fieldZero (v &&& 0xFFFFFFFFFFFFC0FF) := by
          rw [fieldZero, fieldZero, BitVec.extractLsb'_and]; exact BitVec.and_allOnes.symm
      _ = 0 := by rw [hv]; rfl
  have hopc : fieldOpc v = 0x10 :=
    calc fieldOpc v = fieldOpc (v &&& 0xFFFFFFFFFFFFC0FF) := by
          rw [fieldOpc, fieldOpc, BitVec.extractLsb'_and]; exact BitVec.and_allOnes.symm
      _ = 0x10 := by rw [hv]; rfl
  have hfields := word_of_fields hzero
  rwa [hopc] at hfields

/-- A word that selects a row is the encoding of a command of that row. -/
theorem exists_encode_of_selects {i : Instr} {v : Word} (h : (rowOf i).selects v = true) :
    ∃ j, v = encode j ∧ rowOf j = rowOf i := by
  cases i with
  | rotl n => exact ⟨.rotl (fieldImm6 v), eq_encode_rotl_of_selects h, rfl⟩
  | _ => exact ⟨_, selects_fullMask_iff.1 h, rfl⟩

/-- A word that selects no row is illegal (30_encoding.md R54). -/
theorem decode_error_of_no_row {v : Word} (h : ∀ i, (rowOf i).selects v = false) : ∃ r, decode v = .error r := by
  cases hd : decode v with
  | error r => exact ⟨r, rfl⟩
  | ok i =>
    have hsel := selects_encode i
    rw [← eq_encode_of_decode hd, h i] at hsel
    cases hsel

/-! ### A write to `CMD` -/

theorem runCommand_of_ok {v : Word} {i : Instr} (h : decode v = .ok i) (s : State) : runCommand v s = exec i s := by
  simp [runCommand, h]

theorem runCommand_of_error {v : Word} {r : Illegal} (h : decode v = .error r) (s : State) :
    runCommand v s = illegalCommand s := by
  simp [runCommand, h]

/-- Every command but `CLRERR` is an effect under fail-stop (60_exceptions.md R99). -/
theorem exec_eq_command {i : Instr} (hi : i ≠ .clrerr) (s : State) : ∃ f, exec i s = command s f := by
  cases i with
  | nop => exact ⟨_, exec_nop s⟩
  | kexpE => exact ⟨_, exec_kexpE s⟩
  | kexpD => exact ⟨_, exec_kexpD s⟩
  | krev => exact ⟨_, exec_krev s⟩
  | blk => exact ⟨_, exec_blk s⟩
  | ecb => exact ⟨_, exec_ecb s⟩
  | clrerr => exact absurd rfl hi
  | rotl n => exact ⟨_, exec_rotl n s⟩
  | perm => exact ⟨_, exec_perm s⟩
  | g0 => exact ⟨_, exec_g0 s⟩
  | g1 => exact ⟨_, exec_g1 s⟩
  | a16x3 => exact ⟨_, exec_a16x3 s⟩
  | frnd => exact ⟨_, exec_frnd s⟩

/-- With an error recorded every command but `CLRERR` does nothing (60_exceptions.md R99). -/
theorem exec_stopped {i : Instr} (hi : i ≠ .clrerr) {s : State} (h : s.err ≠ .noError) : exec i s = .next s := by
  obtain ⟨f, hf⟩ := exec_eq_command hi s
  rw [hf, command_stopped h]

/-- With an error recorded a write to `CMD` of any word but that of `CLRERR` does nothing, legal or not. -/
theorem runCommand_stopped {v : Word} (hv : v ≠ encode .clrerr) {s : State} (h : s.err ≠ .noError) :
    runCommand v s = .next s := by
  obtain ⟨i, hd, hrun⟩ | ⟨r, -, hrun⟩ := runCommand_cases v s
  · have hi : i ≠ .clrerr := fun hc => hv (hc ▸ eq_encode_of_decode hd)
    rw [hrun, exec_stopped hi h]
  · rw [hrun, illegalCommand, command_stopped h]

/-- With no error recorded an illegal word raises `E_ILLCMD` (30_encoding.md R54). -/
theorem illegalCommand_clear {s : State} (h : s.err = .noError) : illegalCommand s = .next (raise .illCmd s) :=
  command_clear h _

/-- Between transactions, where the sequencer waits, raising records the code and changes nothing else. -/
theorem raise_clear_of_idle {s : State} (h : s.err = .noError) (hidle : s.seq.phase = .idle) (c : ErrCode) :
    raise c s = { s with err := c } := by
  rw [raise_clear h, Sequencer.toIdle_of_idle _ hidle]

/-! ### The statements -/

/-- Settles O1: encode after decode by the fields of the word, decode after encode by the fields of the encoding. -/
theorem decodeAndEncodeAgree : Obligations.DecodeAndEncodeAgree :=
  ⟨decode_encode, fun _ _ h => (eq_encode_of_decode h).symm⟩

/-- Settles O2: a word that selects a row encodes a command of that row, and a word encodes one command only. -/
theorem decodeFollowsTheOpcodeMap : Obligations.DecodeFollowsTheOpcodeMap := by
  refine ⟨fun v i h => ?_, fun v i h => ?_, fun v i j hi hj => ?_⟩
  · rw [eq_encode_of_decode h]
    exact selects_encode i
  · obtain ⟨j, hv, hrow⟩ := exists_encode_of_selects h
    exact ⟨j, decode_eq_ok_iff.2 hv, hrow⟩
  · obtain ⟨i', hvi, hrowi⟩ := exists_encode_of_selects hi
    obtain ⟨j', hvj, hrowj⟩ := exists_encode_of_selects hj
    have hsame : Except.ok i' = Except.ok j' := (decode_eq_ok_iff.2 hvi).symm.trans (decode_eq_ok_iff.2 hvj)
    cases hsame
    exact hrowi.symm.trans hrowj

/-- Settles O4: a word of no row does not decode, and the illegal word's meaning is one for all of them. -/
theorem illegalWordRaisesAndChangesNothingElse : Obligations.IllegalWordRaisesAndChangesNothingElse := by
  intro v s hidle hrow
  obtain ⟨r, hr⟩ := decode_error_of_no_row hrow
  rw [runCommand_of_error hr]
  refine ⟨fun he => ?_, fun he => ?_⟩
  · rw [illegalCommand_clear he, raise_clear_of_idle he hidle]
  · exact command_stopped he _

/-- Settles O5, by whether an error is recorded, then by the word: decoding first cannot be observed, since every meaning
but that of `CLRERR` is under fail-stop (log 14). -/
theorem commandWriteFollowsItsSteps : Obligations.CommandWriteFollowsItsSteps := by
  intro v s
  by_cases he : s.err = .noError
  · rw [if_neg (not_not.2 he)]
    cases hd : decode v with
    | ok i => exact runCommand_of_ok hd s
    | error r => exact (runCommand_of_error hd s).trans (illegalCommand_clear he)
  · rw [if_pos he]
    split
    next hv => exact runCommand_of_ok (decode_eq_ok_iff.2 hv) s
    next hv => exact runCommand_stopped hv he

end Sys2Proof.Machine
end

section
/-! SUPPORT and the settled statements about the rotation unit (40_rotate.md). First where each bit goes, which
determines the rotation; then its laws, each read off the bits; then the word of `ROTL`; last the statements themselves. -/

namespace Sys2Proof.Machine

/-! ### The formula, and where each bit goes -/

@[simp] theorem rotl64_zero (x : Word) : rotl64 x 0#6 = x := rfl

theorem rotl64_of_ne_zero {s : BitVec 6} (hs : s ≠ 0) (x : Word) :
    rotl64 x s = (x <<< s.toNat) ||| (x >>> (64 - s.toNat)) := if_neg hs

/-- Bit `i` goes to bit `(i + s) mod 64` (40_rotate.md R60): by the left shift while it stays below bit 64, else by the
right shift. -/
theorem getLsbD_rotl64 (x : Word) (s : BitVec 6) {i : Nat} (hi : i < 64) :
    (rotl64 x s).getLsbD ((i + s.toNat) % 64) = x.getLsbD i := by
  by_cases hs : s = 0
  · simp [hs, Nat.mod_eq_of_lt hi]
  rw [rotl64_of_ne_zero hs, BitVec.getLsbD_or, BitVec.getLsbD_shiftLeft, BitVec.getLsbD_ushiftRight]
  have hs64 : s.toNat < 64 := s.isLt
  by_cases hstays : i + s.toNat < 64
  · have hout : 64 ≤ 64 - s.toNat + (i + s.toNat) := by omega
    simp [Nat.mod_eq_of_lt hstays, hstays, BitVec.getLsbD_of_ge x _ hout]
  · have hwraps : (i + s.toNat) % 64 = i + s.toNat - 64 := by omega
    have hleft : i + s.toNat - 64 < s.toNat := by omega
    have hright : 64 - s.toNat + (i + s.toNat - 64) = i := by omega
    simp [hwraps, hleft, hright]

/-- A Word with every bit of `x` at its rotated place is the rotation of `x`: every place is that of some bit. -/
theorem rotl64_eq_of_bits {x y : Word} {s : BitVec 6}
    (h : ∀ i, i < 64 → y.getLsbD ((i + s.toNat) % 64) = x.getLsbD i) : rotl64 x s = y := by
  refine BitVec.eq_of_getLsbD_eq fun j hj => ?_
  have hs64 : s.toNat < 64 := s.isLt
  have hsource : (j + 64 - s.toNat) % 64 < 64 := Nat.mod_lt _ (by decide)
  have hplace : ((j + 64 - s.toNat) % 64 + s.toNat) % 64 = j := by omega
  have hbit := (getLsbD_rotl64 x s hsource).trans (h _ hsource).symm
  rwa [hplace] at hbit

/-! ### Composition and inverse -/

theorem rotl64_rotl64 (x : Word) (a b : BitVec 6) : rotl64 (rotl64 x a) b = rotl64 x (a + b) := by
  symm
  refine rotl64_eq_of_bits fun i hi => ?_
  have hsum : (i + (a + b).toNat) % 64 = ((i + a.toNat) % 64 + b.toNat) % 64 := by
    rw [BitVec.toNat_add]
    omega
  rw [hsum, getLsbD_rotl64 _ b (Nat.mod_lt _ (by decide)), getLsbD_rotl64 x a hi]

theorem rotl64_rotl64_neg (x : Word) (s : BitVec 6) : rotl64 (rotl64 x s) (-s) = x := by
  rw [rotl64_rotl64, BitVec.add_right_neg, rotl64_zero]

theorem rotl64_neg_rotl64 (x : Word) (s : BitVec 6) : rotl64 (rotl64 x (-s)) s = x := by
  rw [rotl64_rotl64, BitVec.add_left_neg, rotl64_zero]

theorem rotl64_bijective (s : BitVec 6) : Function.Bijective (fun x : Word => rotl64 x s) :=
  Function.bijective_iff_has_inverse.2
    ⟨fun x => rotl64 x (-s), fun x => rotl64_rotl64_neg x s, fun x => rotl64_neg_rotl64 x s⟩

/-! ### Bitwise operators and constants -/

theorem rotl64_xor (x y : Word) (s : BitVec 6) : rotl64 (x ^^^ y) s = rotl64 x s ^^^ rotl64 y s :=
  rotl64_eq_of_bits fun i hi => by simp only [BitVec.getLsbD_xor, getLsbD_rotl64 _ s hi]

theorem rotl64_and (x y : Word) (s : BitVec 6) : rotl64 (x &&& y) s = rotl64 x s &&& rotl64 y s :=
  rotl64_eq_of_bits fun i hi => by simp only [BitVec.getLsbD_and, getLsbD_rotl64 _ s hi]

theorem rotl64_or (x y : Word) (s : BitVec 6) : rotl64 (x ||| y) s = rotl64 x s ||| rotl64 y s :=
  rotl64_eq_of_bits fun i hi => by simp only [BitVec.getLsbD_or, getLsbD_rotl64 _ s hi]

theorem rotl64_not (x : Word) (s : BitVec 6) : rotl64 (~~~x) s = ~~~(rotl64 x s) := by
  refine rotl64_eq_of_bits fun i hi => ?_
  have hplace : (i + s.toNat) % 64 < 64 := Nat.mod_lt _ (by decide)
  simp only [BitVec.getLsbD_not, getLsbD_rotl64 x s hi, hplace, hi]

@[simp] theorem zero_rotl64 (s : BitVec 6) : rotl64 0#64 s = 0#64 :=
  rotl64_eq_of_bits fun i _ => by simp

/-- All ones is the complement of 0, which the rotation fixes. -/
@[simp] theorem allOnes_rotl64 (s : BitVec 6) : rotl64 0xFFFFFFFFFFFFFFFF#64 s = 0xFFFFFFFFFFFFFFFF#64 := by
  have hones : 0xFFFFFFFFFFFFFFFF#64 = ~~~0#64 := rfl
  rw [hones, rotl64_not, zero_rotl64]

/-! ### The two terms of the formula -/

/-- The left shift leaves the bits below the amount 0, the right shift those from it on (40_rotate.md R62 (d)). -/
theorem rotl64_terms_disjoint (x : Word) (s : BitVec 6) : (x <<< s.toNat) &&& (x >>> (64 - s.toNat)) = 0 := by
  refine BitVec.eq_of_getLsbD_eq fun j _ => ?_
  rw [BitVec.getLsbD_and, BitVec.getLsbD_shiftLeft, BitVec.getLsbD_ushiftRight]
  by_cases hlow : j < s.toNat
  · simp [hlow]
  · have hout : 64 ≤ 64 - s.toNat + j := by omega
    simp [BitVec.getLsbD_of_ge x _ hout]

/-- Words that share no bit have the same disjunction and exclusive or. -/
theorem or_eq_xor_of_disjoint {v w : Word} (h : v &&& w = 0#64) : v ||| w = v ^^^ w := by
  refine BitVec.eq_of_getLsbD_eq fun j _ => ?_
  have hbit : (v.getLsbD j && w.getLsbD j) = false := by
    rw [← BitVec.getLsbD_and, h, BitVec.getLsbD_zero]
  cases hv : v.getLsbD j with
  | false => simp [hv]
  | true =>
    rw [hv, Bool.true_and] at hbit
    simp [hbit]

/-! ### Lanes -/

/-- A rotation that takes the lowest bit of lane `k` to that of lane `k'` takes the whole lane there. -/
theorem lane_rotl64 {s : BitVec 6} {k k' : Nat} (h : (4 * k + s.toNat) % 64 = 4 * k') (hk : k < 16) (x : Word) :
    lane (rotl64 x s) k' = lane x k := by
  refine BitVec.eq_of_getLsbD_eq fun j hj => ?_
  have hplace : 4 * k' + j = (4 * k + j + s.toNat) % 64 := by omega
  simp only [lane, BitVec.getLsbD_extractLsb', hplace, getLsbD_rotl64 x s (show 4 * k + j < 64 by omega)]

theorem lane_rotl64_60 (x : Word) {k : Nat} (hk : k < 16) : lane (rotl64 x 60) k = lane x ((k + 1) % 16) :=
  lane_rotl64 (by simp only [BitVec.reduceToNat]; omega) (Nat.mod_lt _ (by decide)) x

theorem lane_rotl64_4 (x : Word) {k : Nat} (hk : k < 16) : lane (rotl64 x 4) ((k + 1) % 16) = lane x k :=
  lane_rotl64 (by simp only [BitVec.reduceToNat]; omega) hk x

/-! ### The command -/

/-- Opcode and immediate share no bit of a command's word, so that their disjunction is a sum (30_encoding.md R50). -/
theorem encode_eq_add (i : Instr) :
    encode i = (opcodeOf i).setWidth 64 + ((immediateOf i).setWidth 64 <<< 8) := by
  refine (BitVec.add_eq_or_of_and_eq_zero _ _ (BitVec.eq_of_getLsbD_eq fun j _ => ?_)).symm
  rw [BitVec.getLsbD_and, BitVec.getLsbD_setWidth, BitVec.getLsbD_shiftLeft]
  by_cases hlow : j < 8
  · simp [hlow]
  · simp [BitVec.getLsbD_of_ge (opcodeOf i) j (not_lt.1 hlow)]

/-- The word of `ROTL` (40_rotate.md R61). -/
theorem encode_rotl (n : BitVec 6) : encode (.rotl n) = BitVec.ofNat 64 (0x10 + 256 * n.toNat) := by
  rw [encode_eq_add, opcodeOf, immediateOf]
  bv_omega

/-- A word with bits 63:14 not zero is illegal, whatever its opcode (30_encoding.md R53). -/
theorem decode_of_fieldZero_ne {v : Word} (h : fieldZero v ≠ 0) : decode v = .error .zeroField := if_pos h

theorem rotl64_63 (x : Word) : rotl64 x 63 = (x >>> 1) ||| (x <<< 63) :=
  (rotl64_of_ne_zero (by decide) x).trans (BitVec.or_comm _ _)

/-! ### The statements -/

/-- Settles O28: the two cases of the formula, and the place of each bit. -/
theorem rotationMovesEveryBit : Obligations.RotationMovesEveryBit :=
  ⟨rotl64_zero, fun x _ hs => rotl64_of_ne_zero hs x, fun x s _ hi => getLsbD_rotl64 x s hi⟩

/-- Settles O29: each law by the places of the bits, the sum and the exclusive or by the disjoint terms. -/
theorem rotationLaws : Obligations.RotationLaws := by
  refine ⟨rotl64_rotl64, rotl64_bijective, fun x s => ⟨rotl64_rotl64_neg x s, rotl64_neg_rotl64 x s⟩,
    fun x y s => ⟨rotl64_xor x y s, rotl64_and x y s, rotl64_or x y s, rotl64_not x s⟩, fun x s hs => ?_,
    fun x k hk => ⟨lane_rotl64_60 x hk, lane_rotl64_4 x hk⟩, fun s => ⟨zero_rotl64 s, allOnes_rotl64 s⟩⟩
  have hdisjoint := rotl64_terms_disjoint x s
  rw [rotl64_of_ne_zero hs]
  exact ⟨hdisjoint, or_eq_xor_of_disjoint hdisjoint, (BitVec.add_eq_or_of_and_eq_zero _ _ hdisjoint).symm⟩

/-- Settles O9: the effect under fail-stop, the word of the command, and the two corner amounts. -/
theorem rotlWritesTheRotationToRes : Obligations.RotlWritesTheRotationToRes := by
  refine ⟨fun s n he => ?_, fun s n he => exec_stopped (by simp) he, fun n => ⟨encode_rotl n, decode_encode _⟩,
    fun v _ hz => ⟨_, decode_of_fieldZero_ne hz⟩, fun x => ⟨rotl64_zero x, rotl64_63 x⟩, by decide, by decide⟩
  rw [exec_rotl, command_clear he]
  rfl

end Sys2Proof.Machine
end

section
/-! SUPPORT and the settled statements about the permutation network (41_permutation.md), and the formulas of the units
that use it. First how the bytes of a Word follow rotations, masks and bitwise operators; then where `P` takes each byte,
which determines it; then its laws, each read off the bytes; then the command; last the statements themselves. -/

namespace Sys2Proof.Machine

/-! ### Bytes under rotation and bitwise operators -/

theorem byteOf_and (x y : Word) (k : Nat) : byteOf (x &&& y) k = byteOf x k &&& byteOf y k := BitVec.extractLsb'_and

theorem byteOf_or (x y : Word) (k : Nat) : byteOf (x ||| y) k = byteOf x k ||| byteOf y k := BitVec.extractLsb'_or

theorem byteOf_xor (x y : Word) (k : Nat) : byteOf (x ^^^ y) k = byteOf x k ^^^ byteOf y k := BitVec.extractLsb'_xor

/-- A rotation by `64 - 8 * m` bits brings byte `(j + m) % 8` to `j`, the whole byte. -/
theorem byteOf_rotl64 {s : BitVec 6} {j m : Nat} (hj : j < 8) (h : 8 * m + s.toNat = 64) (x : Word) :
    byteOf (rotl64 x s) j = byteOf x ((j + m) % 8) := by
  refine BitVec.eq_of_getLsbD_eq fun i hi => ?_
  have hplace : 8 * j + i = (8 * ((j + m) % 8) + i + s.toNat) % 64 := by omega
  rw [byteOf_getLsbD, byteOf_getLsbD, hplace, getLsbD_rotl64 x s (by omega)]

/-- The first mask is the bytes 0, 2, 4, 6 (41_permutation.md R63). -/
theorem byteOf_evenBytes : ∀ k, k < 8 → byteOf evenBytes k = if k % 2 = 0 then 0xFF else 0 := by decide

/-- The second mask is the bytes 1, 3, 5, 7 (41_permutation.md R63). -/
theorem byteOf_oddBytes : ∀ k, k < 8 → byteOf oddBytes k = if k % 2 = 1 then 0xFF else 0 := by decide

theorem byteOf_and_evenBytes (x : Word) {k : Nat} (hk : k < 8) :
    byteOf (x &&& evenBytes) k = if k % 2 = 0 then byteOf x k else 0 := by
  rw [byteOf_and, byteOf_evenBytes k hk]
  split
  · exact BitVec.and_allOnes
  · exact BitVec.and_zero

theorem byteOf_and_oddBytes (x : Word) {k : Nat} (hk : k < 8) :
    byteOf (x &&& oddBytes) k = if k % 2 = 1 then byteOf x k else 0 := by
  rw [byteOf_and, byteOf_oddBytes k hk]
  split
  · exact BitVec.and_allOnes
  · exact BitVec.and_zero

/-- The two halves of `P`, and of its inverse, rotate by an odd number of bytes each, so that the even bytes land on the odd
positions and the odd bytes on the even ones, and never two on one (41_permutation.md R64). -/
theorem byteOf_masked_rotations {a b : BitVec 6} {j m n : Nat} (hj : j < 8) (ha : 8 * m + a.toNat = 64)
    (hb : 8 * n + b.toNat = 64) (hm : m % 2 = 1) (hn : n % 2 = 1) (x : Word) :
    byteOf (rotl64 (x &&& evenBytes) a ||| rotl64 (x &&& oddBytes) b) j =
      byteOf x ((j + if j % 2 = 0 then n else m) % 8) := by
  rw [byteOf_or, byteOf_rotl64 hj ha, byteOf_rotl64 hj hb, byteOf_and_evenBytes x (Nat.mod_lt _ (by decide)),
    byteOf_and_oddBytes x (Nat.mod_lt _ (by decide))]
  by_cases heven : j % 2 = 0
  · rw [if_pos heven, if_neg (by omega), if_pos (by omega)]
    exact BitVec.zero_or
  · rw [if_neg heven, if_pos (by omega), if_neg (by omega)]
    exact BitVec.or_zero

/-! ### Where each byte goes -/

/-- The byte of `P(x)` that byte `k` of `x` goes to (the table of 41_permutation.md R64); `byteOf_permute` ties it to
`permute`. -/
def byteTarget (k : Nat) : Nat := [7, 4, 1, 6, 3, 0, 5, 2].getD k 0

theorem byteTarget_lt : ∀ k, k < 8 → byteTarget k < 8 := by decide

/-- Byte `k` of `x` is byte `byteTarget k` of `P(x)` (41_permutation.md R64). -/
theorem byteOf_permute (x : Word) {k : Nat} (hk : k < 8) : byteOf (permute x) (byteTarget k) = byteOf x k := by
  have hsource : ∀ k, k < 8 → (byteTarget k + if byteTarget k % 2 = 0 then 5 else 1) % 8 = k := by decide
  rw [permute, byteOf_masked_rotations (m := 1) (n := 5) (byteTarget_lt k hk) rfl rfl rfl rfl, hsource k hk]

/-! ### Powers of `P` -/

theorem byteTarget_iterate_lt {k : Nat} (hk : k < 8) (n : Nat) : byteTarget^[n] k < 8 := by
  induction n with
  | zero => exact hk
  | succ n ih =>
    rw [Function.iterate_succ_apply']
    exact byteTarget_lt _ ih

/-- The eight byte positions are one cycle of the table: 0, 7, 2, 1, 4, 3, 6, 5 (41_permutation.md R64). -/
theorem byteTarget_iterate_eight : ∀ k, k < 8 → byteTarget^[8] k = k := by decide

/-- The `n`-th power of `P` moves the bytes by the `n`-th power of its table. -/
theorem byteOf_permute_iterate (x : Word) {k : Nat} (hk : k < 8) (n : Nat) :
    byteOf (permute^[n] x) (byteTarget^[n] k) = byteOf x k := by
  induction n with
  | zero => rfl
  | succ n ih =>
    rw [Function.iterate_succ_apply', Function.iterate_succ_apply', byteOf_permute _ (byteTarget_iterate_lt hk n), ih]

theorem permute_iterate_eight (x : Word) : permute^[8] x = x := by
  refine word_ext_of_bytes fun k hk => ?_
  have hbyte := byteOf_permute_iterate x hk 8
  rwa [byteTarget_iterate_eight k hk] at hbyte

/-- A smaller positive power takes byte 0 elsewhere, so that it moves the Word whose one byte not 0 is byte 0. -/
theorem permute_iterate_ne {n : Nat} (hpos : 0 < n) (hlt : n < 8) : permute^[n] 0xFF ≠ 0xFF := by
  intro hfixed
  have hmoved : ∀ n, n < 8 → 0 < n → byteOf 0xFF (byteTarget^[n] 0) ≠ byteOf 0xFF 0 := by decide
  have hbyte := byteOf_permute_iterate 0xFF (show 0 < 8 by decide) n
  rw [hfixed] at hbyte
  exact hmoved n hlt hpos hbyte

/-- The seventh power of `P` is its inverse. -/
theorem permute_bijective : Function.Bijective permute := by
  refine Function.bijective_iff_has_inverse.2 ⟨permute^[7], permute_iterate_eight, fun x => ?_⟩
  rw [← Function.iterate_succ_apply' permute 7 x]
  exact permute_iterate_eight x

/-! ### The laws of `P` -/

/-- A Word with every byte of `x` at its place in the table is `P(x)`: every place is that of some byte. -/
theorem permute_eq_of_bytes {x y : Word} (h : ∀ k, k < 8 → byteOf y (byteTarget k) = byteOf x k) : permute x = y := by
  refine word_ext_of_bytes fun j hj => ?_
  have hsource : byteTarget^[7] j < 8 := byteTarget_iterate_lt hj 7
  have hplace : byteTarget (byteTarget^[7] j) = j := by
    rw [← Function.iterate_succ_apply' byteTarget 7 j]
    exact byteTarget_iterate_eight j hj
  have hbyte := (byteOf_permute x hsource).trans (h _ hsource).symm
  rwa [hplace] at hbyte

theorem permute_xor (a b : Word) : permute (a ^^^ b) = permute a ^^^ permute b :=
  permute_eq_of_bytes fun k hk => by simp only [byteOf_xor, byteOf_permute _ hk]

/-- The rule's inverse brings back to `k` the byte that the table took from there: the odd bytes rotate by 8, the even ones
by 40 (41_permutation.md R64). -/
theorem inverse_permute (x : Word) : rotl64 (permute x &&& oddBytes) 8 ||| rotl64 (permute x &&& evenBytes) 40 = x := by
  refine word_ext_of_bytes fun k hk => ?_
  have htarget : ∀ k, k < 8 → (k + if k % 2 = 0 then 7 else 3) % 8 = byteTarget k := by decide
  rw [BitVec.or_comm, byteOf_masked_rotations (m := 3) (n := 7) hk rfl rfl rfl rfl, htarget k hk, byteOf_permute x hk]

@[simp] theorem permute_zero : permute 0 = 0 := by decide

@[simp] theorem permute_allOnes : permute 0xFFFFFFFFFFFFFFFF = 0xFFFFFFFFFFFFFFFF := by decide

/-! ### The units that fix 0 -/

@[simp] theorem a16_zero : a16 0 = 0 := by decide

@[simp] theorem a16x3_zero : a16x3 0 = 0 := by rw [a16x3, a16_zero, a16_zero, a16_zero]

@[simp] theorem g0_zero : g0 0 = 0 := by decide

@[simp] theorem g1_zero : g1 0 = 0 := by decide

/-- Every unit `F` is made of fixes 0 (44_round_function.md R82). -/
@[simp] theorem roundF_zero : roundF 0 = 0 :=
  calc roundF 0 = permute (g0 0 ^^^ g1 0) := congrArg (fun y => permute (g0 0 ^^^ g1 y)) (zero_rotl64 4)
    _ = 0 := by rw [g0_zero, g1_zero]; exact permute_zero

/-! ### The one word of a command without an immediate -/

theorem fixedCommand_opcodeOf {i : Instr} (hi : ∀ n, i ≠ .rotl n) : fixedCommand (opcodeOf i) = some i := by
  cases i with
  | rotl n => exact absurd rfl (hi n)
  | _ => rfl

/-- The opcode of a command other than `ROTL` is that command's alone (30_encoding.md R52). -/
theorem eq_of_opcodeOf_eq {i j : Instr} (hi : ∀ n, i ≠ .rotl n) (h : opcodeOf j = opcodeOf i) : j = i := by
  have hfixed := fixedCommand_opcodeOf hi
  rw [← h] at hfixed
  by_cases hj : ∀ n, j ≠ .rotl n
  · exact Option.some.inj ((fixedCommand_opcodeOf hj).symm.trans hfixed)
  · obtain ⟨n, rfl⟩ := not_forall_not.1 hj
    cases hfixed

/-- A command without an immediate has its encoding as its one word (30_encoding.md R53): a word that decodes is the
encoding of a command, and the opcode tells which. -/
theorem commandWord_encode {i : Instr} (hi : ∀ n, i ≠ .rotl n) : CommandWord i (encode i) := by
  refine ⟨rfl, decode_encode i, fun v hopc hne => ?_⟩
  cases hd : decode v with
  | error r => exact ⟨r, rfl⟩
  | ok j =>
    have hv : v = encode j := eq_encode_of_decode hd
    rw [hv, fieldOpc_encode, fieldOpc_encode] at hopc
    exact absurd (eq_of_opcodeOf_eq hi hopc ▸ hv) hne

/-! ### The statements -/

/-- Settles O30: the table byte by byte, the order by the table's one cycle, the other laws by the bytes. -/
theorem permutationMovesWholeBytes : Obligations.PermutationMovesWholeBytes :=
  ⟨fun x _ hk => byteOf_permute x hk, permute_bijective, permute_xor, permute_iterate_eight,
    fun _ hpos hlt => ⟨_, permute_iterate_ne hpos hlt⟩, inverse_permute, permute_zero, permute_allOnes⟩

/-- Settles O10: the effect under fail-stop, the one word of the command, and the corner cases. -/
theorem permWritesThePermutationToRes : Obligations.PermWritesThePermutationToRes := by
  refine ⟨fun s he => ?_, fun s he => exec_stopped (by simp) he, commandWord_encode (by simp), permute_zero,
    permute_allOnes, by decide⟩
  rw [exec_perm, command_clear he]
  rfl

/-- Settles O38: the formulas are the definitions, the masks are known by their bytes, and the units fix 0. -/
theorem formulasOfTheUnits : Obligations.FormulasOfTheUnits :=
  ⟨fun _ => rfl, fun k hk => ⟨byteOf_evenBytes k hk, byteOf_oddBytes k hk⟩, fun _ => rfl, a16x3_zero, fun _ => rfl,
    roundF_zero, fun _ _ _ => rfl⟩

end Sys2Proof.Machine
end

section
/-! SUPPORT and the settled statements about the nonlinear feedback layer (42_nonlinear.md). First how the lanes of a Word
follow bitwise operators and masked shifts; then `G0` and `G1` as one function of a lane each, which determines them; then
the bits, the tables and the powers of that function, of sixteen lane values; last the statements themselves. -/

namespace Sys2Proof.Machine

/-! ### Lanes under bitwise operators -/

theorem lane_getLsbD (w : Word) (k j : Nat) : (lane w k).getLsbD j = (decide (j < 4) && w.getLsbD (4 * k + j)) := by
  simp [lane]

/-- A Word is its sixteen lanes (00_scope.md R7). -/
theorem word_ext_of_lanes {v w : Word} (h : ∀ k, k < 16 → lane v k = lane w k) : v = w := by
  refine BitVec.eq_of_getLsbD_eq fun i hi => ?_
  have hbit := congrArg (BitVec.getLsbD · (i % 4)) (h (i / 4) (by omega))
  simpa only [lane_getLsbD, Nat.mod_lt i (show 4 > 0 by decide), Nat.div_add_mod, decide_true, Bool.true_and] using hbit

theorem lane_and (x y : Word) (k : Nat) : lane (x &&& y) k = lane x k &&& lane y k := BitVec.extractLsb'_and

theorem lane_xor (x y : Word) (k : Nat) : lane (x ^^^ y) k = lane x k ^^^ lane y k := BitVec.extractLsb'_xor

/-! ### Masked shifts stay inside the lane

A shift of the Word carries bits across lane boundaries, but the masks keep only places whose bit comes from the same lane
(42_nonlinear.md R66). -/

/-- Under a mask without the top `n` places of the lane, the Word shifted right is the lane shifted right. -/
theorem lane_ushiftRight_masked {m : Word} {k n : Nat} {d : BitVec 4} (hm : lane m k = d)
    (hd : ∀ j, j < 4 → d.getLsbD j = true → n + j < 4) (x : Word) :
    lane (x >>> n &&& m) k = lane x k >>> n &&& d := by
  refine BitVec.eq_of_getLsbD_eq fun j hj => ?_
  rw [lane_and, hm, BitVec.getLsbD_and, BitVec.getLsbD_and]
  cases hplace : d.getLsbD j with
  | false => simp only [Bool.and_false]
  | true =>
    have hsame : 4 * k + (n + j) = n + (4 * k + j) := by omega
    simp only [lane_getLsbD, BitVec.getLsbD_ushiftRight, hj, hd j hj hplace, hsame, decide_true, Bool.true_and]

/-- Under a mask without the low `n` places of the lane, the Word shifted left is the lane shifted left. -/
theorem lane_shiftLeft_masked {m : Word} {k n : Nat} {d : BitVec 4} (hk : k < 16) (hm : lane m k = d)
    (hd : ∀ j, j < 4 → d.getLsbD j = true → n ≤ j) (x : Word) :
    lane (x <<< n &&& m) k = lane x k <<< n &&& d := by
  refine BitVec.eq_of_getLsbD_eq fun j hj => ?_
  rw [lane_and, hm, BitVec.getLsbD_and, BitVec.getLsbD_and]
  cases hplace : d.getLsbD j with
  | false => simp only [Bool.and_false]
  | true =>
    have hn : n ≤ j := hd j hj hplace
    have hsame : 4 * k + (j - n) = 4 * k + j - n := by omega
    have hsource : j - n < 4 := by omega
    have hinside : 4 * k + j < 64 ∧ ¬ 4 * k + j < n := by omega
    simp only [lane_getLsbD, BitVec.getLsbD_shiftLeft, hj, not_lt.2 hn, hsame, hsource, hinside, decide_true,
      decide_false, Bool.not_false, Bool.true_and]

/-- One mask on a product masks each of its factors. -/
theorem and_and_eq_masked {w : Nat} (u v z : BitVec w) : u &&& v &&& z = (u &&& z) &&& (v &&& z) :=
  calc u &&& v &&& z = u &&& v &&& (z &&& z) := by rw [BitVec.and_self]
    _ = (u &&& z) &&& (v &&& z) := by ac_rfl

theorem lane_masked_product {a b m : Word} {k : Nat} {a' b' d : BitVec 4} (ha : lane (a &&& m) k = a' &&& d)
    (hb : lane (b &&& m) k = b' &&& d) : lane (a &&& b &&& m) k = a' &&& b' &&& d := by
  rw [and_and_eq_masked, lane_and, ha, hb, ← and_and_eq_masked]

/-! ### `G0` and `G1` lane by lane -/

/-- `G0` on one lane: the formula of 42_nonlinear.md R67, four bits wide; `lane_g0` ties it to `g0`. -/
def g0Lane (b : BitVec 4) : BitVec 4 :=
  let b1 := b ^^^ (b >>> 3 &&& b >>> 2 &&& 0x1)
  b1 ^^^ (b1 <<< 3 &&& b1 <<< 2 &&& 0x8)

/-- `G1` on one lane: the formula of 42_nonlinear.md R68, four bits wide; `lane_g1` ties it to `g1`. -/
def g1Lane (b : BitVec 4) : BitVec 4 :=
  let b1 := b ^^^ (b >>> 1 &&& b <<< 1 &&& 0x4)
  b1 ^^^ (b1 <<< 1 &&& b1 >>> 1 &&& 0x2)

/-- The masks are one digit in every lane (42_nonlinear.md R67, R68). -/
theorem lane_masks : ∀ k, k < 16 →
    lane 0x1111111111111111 k = 0x1 ∧ lane 0x8888888888888888 k = 0x8 ∧
    lane 0x4444444444444444 k = 0x4 ∧ lane 0x2222222222222222 k = 0x2 := by decide

theorem lane_g0 (x : Word) {k : Nat} (hk : k < 16) : lane (g0 x) k = g0Lane (lane x k) := by
  obtain ⟨hmask1, hmask8, -, -⟩ := lane_masks k hk
  have hfirst (y : Word) : lane (y >>> 3 &&& y >>> 2 &&& 0x1111111111111111) k =
      lane y k >>> 3 &&& lane y k >>> 2 &&& 0x1 :=
    lane_masked_product (lane_ushiftRight_masked hmask1 (by decide) y) (lane_ushiftRight_masked hmask1 (by decide) y)
  have hsecond (y : Word) : lane (y <<< 3 &&& y <<< 2 &&& 0x8888888888888888) k =
      lane y k <<< 3 &&& lane y k <<< 2 &&& 0x8 :=
    lane_masked_product (lane_shiftLeft_masked hk hmask8 (by decide) y) (lane_shiftLeft_masked hk hmask8 (by decide) y)
  simp only [g0, g0Lane, lane_xor, hfirst, hsecond]

theorem lane_g1 (x : Word) {k : Nat} (hk : k < 16) : lane (g1 x) k = g1Lane (lane x k) := by
  obtain ⟨-, -, hmask4, hmask2⟩ := lane_masks k hk
  have hfirst (y : Word) : lane (y >>> 1 &&& y <<< 1 &&& 0x4444444444444444) k =
      lane y k >>> 1 &&& lane y k <<< 1 &&& 0x4 :=
    lane_masked_product (lane_ushiftRight_masked hmask4 (by decide) y) (lane_shiftLeft_masked hk hmask4 (by decide) y)
  have hsecond (y : Word) : lane (y <<< 1 &&& y >>> 1 &&& 0x2222222222222222) k =
      lane y k <<< 1 &&& lane y k >>> 1 &&& 0x2 :=
    lane_masked_product (lane_shiftLeft_masked hk hmask2 (by decide) y) (lane_ushiftRight_masked hmask2 (by decide) y)
  simp only [g1, g1Lane, lane_xor, hfirst, hsecond]

/-! ### The sixteen values of a lane -/

theorem g0Lane_bits : ∀ b : BitVec 4,
    (g0Lane b).getLsbD 0 = (b.getLsbD 0 ^^ (b.getLsbD 3 && b.getLsbD 2)) ∧ (g0Lane b).getLsbD 1 = b.getLsbD 1 ∧
    (g0Lane b).getLsbD 2 = b.getLsbD 2 ∧
    (g0Lane b).getLsbD 3 =
      (b.getLsbD 3 ^^ ((b.getLsbD 0 ^^ (b.getLsbD 3 && b.getLsbD 2)) && b.getLsbD 1)) := by decide

theorem g1Lane_bits : ∀ b : BitVec 4,
    (g1Lane b).getLsbD 0 = b.getLsbD 0 ∧
    (g1Lane b).getLsbD 1 =
      (b.getLsbD 1 ^^ (b.getLsbD 0 && (b.getLsbD 2 ^^ (b.getLsbD 3 && b.getLsbD 1)))) ∧
    (g1Lane b).getLsbD 2 = (b.getLsbD 2 ^^ (b.getLsbD 3 && b.getLsbD 1)) ∧ (g1Lane b).getLsbD 3 = b.getLsbD 3 := by
  decide

theorem g0Lane_eq_table : ∀ b : BitVec 4, g0Lane b = BitVec.ofNat 4
    ([0x0, 0x1, 0x2, 0xB, 0x4, 0x5, 0x6, 0xF, 0x8, 0x9, 0xA, 0x3, 0xD, 0xC, 0x7, 0xE].getD b.toNat 0) := by decide

theorem g1Lane_eq_table : ∀ b : BitVec 4, g1Lane b = BitVec.ofNat 4
    ([0x0, 0x1, 0x2, 0x3, 0x4, 0x7, 0x6, 0x5, 0x8, 0x9, 0xE, 0xD, 0xC, 0xF, 0xA, 0xB].getD b.toNat 0) := by decide

/-- The table of `G0` is the cycles (3 B), (C D) and (7 F E). -/
theorem g0Lane_iterate_six : ∀ b, g0Lane^[6] b = b := by decide

/-- The table of `G1` is the cycles (5 7), (A E) and (B D F). -/
theorem g1Lane_iterate_six : ∀ b, g1Lane^[6] b = b := by decide

/-! ### From lanes to Words -/

/-- Powers act on the lanes as the function does. -/
theorem lane_iterate {f : Word → Word} {c : BitVec 4 → BitVec 4} {k : Nat} (h : ∀ x, lane (f x) k = c (lane x k))
    (n : Nat) (x : Word) : lane (f^[n] x) k = c^[n] (lane x k) := by
  induction n with
  | zero => rfl
  | succ n ih => rw [Function.iterate_succ_apply', Function.iterate_succ_apply', h, ih]

/-- A function that acts on every lane by a table with a power the identity is a bijection: the power before is its
inverse. -/
theorem bijective_of_lanes {f : Word → Word} {c : BitVec 4 → BitVec 4} {n : Nat}
    (h : ∀ x k, k < 16 → lane (f x) k = c (lane x k)) (hc : ∀ b, c^[n + 1] b = b) : Function.Bijective f := by
  have hpower (x : Word) : f^[n + 1] x = x :=
    word_ext_of_lanes fun k hk => (lane_iterate (fun x => h x k hk) (n + 1) x).trans (hc _)
  refine Function.bijective_iff_has_inverse.2 ⟨f^[n], hpower, fun x => ?_⟩
  rw [← Function.iterate_succ_apply' f n x]
  exact hpower x

theorem g0_bijective : Function.Bijective g0 := bijective_of_lanes (fun x _ hk => lane_g0 x hk) g0Lane_iterate_six

theorem g1_bijective : Function.Bijective g1 := bijective_of_lanes (fun x _ hk => lane_g1 x hk) g1Lane_iterate_six

/-! ### The statements -/

/-- Settles O31: the two statements are the definition; the bits are those of `G0` on one lane. -/
theorem g0OnLaneBits : Obligations.G0OnLaneBits := by
  refine ⟨fun _ => rfl, fun x k hk => ?_⟩
  rw [lane_g0 x hk]
  exact g0Lane_bits (lane x k)

/-- Settles O32: the two statements are the definition; the bits are those of `G1` on one lane. -/
theorem g1OnLaneBits : Obligations.G1OnLaneBits := by
  refine ⟨fun _ => rfl, fun x k hk => ?_⟩
  rw [lane_g1 x hk]
  exact g1Lane_bits (lane x k)

/-- Settles O33: the tables lane by lane, the bijections by the cycles of the tables, the single values by evaluation. -/
theorem nonlinearLaneTables : Obligations.NonlinearLaneTables :=
  ⟨fun x k hk => ⟨(lane_g0 x hk).trans (g0Lane_eq_table _), (lane_g1 x hk).trans (g1Lane_eq_table _)⟩,
    g0_bijective, g1_bijective, g0_zero, g1_zero, by decide, by decide, by decide, by decide⟩

/-- Settles O11: the effect under fail-stop, the one word of the command, and the corner cases. -/
theorem g0CommandWritesRes : Obligations.G0CommandWritesRes := by
  refine ⟨fun s he => ?_, fun s he => exec_stopped (by simp) he, commandWord_encode (by simp), g0_zero,
    by decide, by decide⟩
  rw [exec_g0, command_clear he]
  rfl

/-- Settles O12: the effect under fail-stop, the one word of the command, and the corner cases. -/
theorem g1CommandWritesRes : Obligations.G1CommandWritesRes := by
  refine ⟨fun s he => ?_, fun s he => exec_stopped (by simp) he, commandWord_encode (by simp), g1_zero,
    by decide, by decide⟩
  rw [exec_g1, command_clear he]
  rfl

end Sys2Proof.Machine
end

section
/-! SUPPORT and the settled statements about the key-schedule expander (43_key_schedule.md). First `A16` as a rotation
followed by a change of the top lane alone, each a linear bijection; then the schedule, element by element, from its two
seeds and its recurrence; then what the three commands on the schedule answer; last the statements themselves. -/

namespace Sys2Proof.Machine

/-! ### The change of the top lane -/

/-- A lane placed in bits 63:60, with zeros below. -/
def topLane (t : BitVec 4) : Word := t.setWidth 64 <<< 60

theorem topLane_xor (t u : BitVec 4) : topLane (t ^^^ u) = topLane t ^^^ topLane u := by
  rw [topLane, BitVec.setWidth_xor, BitVec.shiftLeft_xor_distrib]
  rfl

theorem topLane_getLsbD (t : BitVec 4) (i : Nat) :
    (topLane t).getLsbD i = (decide (60 ≤ i ∧ i < 64) && t.getLsbD (i - 60)) := by
  rw [topLane, BitVec.getLsbD_shiftLeft, BitVec.getLsbD_setWidth]
  obtain hlow | htop | hhigh : i < 60 ∨ (60 ≤ i ∧ i < 64) ∨ 64 ≤ i := by omega
  · simp [hlow, show ¬ 60 ≤ i by omega]
  · simp [htop, show ¬ i < 60 by omega, show i - 60 < 64 by omega]
  · simp [show ¬ i < 64 by omega]

theorem lane_topLane (t : BitVec 4) : lane (topLane t) 15 = t := by
  refine BitVec.eq_of_getLsbD_eq fun j hj => ?_
  rw [lane_getLsbD, topLane_getLsbD, Nat.add_sub_cancel_left]
  simp [hj, show 60 + j < 64 by omega]

/-- Any field below bit 60 of such a Word is 0. -/
theorem extractLsb'_topLane (t : BitVec 4) {start len : Nat} (h : start + len ≤ 60) :
    (topLane t).extractLsb' start len = 0 := by
  refine BitVec.eq_of_getLsbD_eq fun j hj => ?_
  simp [BitVec.getLsbD_extractLsb', topLane_getLsbD, show ¬ 60 ≤ start + j by omega]

theorem rotl4_xor (t u : BitVec 4) : rotl4 (t ^^^ u) = rotl4 t ^^^ rotl4 u := by
  revert t u
  decide

/-- The second half of `A16`: lane 14, rotated by 1, exclusive-ored into lane 15 (43_key_schedule.md R72). -/
def mixTopLane (v : Word) : Word := v ^^^ topLane (rotl4 (lane v 14))

/-- Below bit 60 nothing changes. -/
theorem extractLsb'_mixTopLane (v : Word) {start len : Nat} (h : start + len ≤ 60) :
    (mixTopLane v).extractLsb' start len = v.extractLsb' start len := by
  rw [mixTopLane, BitVec.extractLsb'_xor, extractLsb'_topLane _ h]
  exact BitVec.xor_zero

theorem lane_mixTopLane (v : Word) {k : Nat} (hk : k < 15) : lane (mixTopLane v) k = lane v k :=
  extractLsb'_mixTopLane v (by omega)

theorem lane_mixTopLane_top (v : Word) : lane (mixTopLane v) 15 = lane v 15 ^^^ rotl4 (lane v 14) := by
  rw [mixTopLane, lane_xor, lane_topLane]

/-- Lane 14 stays, so that the second time takes out what the first put in. -/
theorem mixTopLane_involutive : Function.Involutive mixTopLane := by
  intro v
  have hsame : lane (mixTopLane v) 14 = lane v 14 := lane_mixTopLane v (by decide)
  calc mixTopLane (mixTopLane v) = mixTopLane v ^^^ topLane (rotl4 (lane v 14)) := by rw [mixTopLane, hsame]
    _ = v := by rw [mixTopLane, BitVec.xor_assoc, BitVec.xor_self, BitVec.xor_zero]

theorem xor_pairs_swap (a b c d : Word) : a ^^^ b ^^^ (c ^^^ d) = a ^^^ c ^^^ (b ^^^ d) := by
  ac_rfl

theorem mixTopLane_xor (v w : Word) : mixTopLane (v ^^^ w) = mixTopLane v ^^^ mixTopLane w := by
  rw [mixTopLane, lane_xor, rotl4_xor, topLane_xor, xor_pairs_swap]
  rfl

/-! ### `A16` -/

/-- `A16` rotates, then changes the top lane (43_key_schedule.md R72). -/
theorem a16_eq (w : Word) : a16 w = mixTopLane (rotl64 w 60) := rfl

theorem lane_a16 (w : Word) {k : Nat} (hk : k < 15) : lane (a16 w) k = lane w (k + 1) := by
  rw [a16_eq, lane_mixTopLane _ hk, lane_rotl64_60 w (by omega), Nat.mod_eq_of_lt (by omega)]

theorem lane_a16_top (w : Word) : lane (a16 w) 15 = lane w 0 ^^^ rotl4 (lane w 15) := by
  rw [a16_eq, lane_mixTopLane_top, lane_rotl64_60 w (by decide), lane_rotl64_60 w (by decide)]

theorem a16_bijective : Function.Bijective a16 := mixTopLane_involutive.bijective.comp (rotl64_bijective 60)

theorem a16_xor (a b : Word) : a16 (a ^^^ b) = a16 a ^^^ a16 b := by
  rw [a16_eq, rotl64_xor, mixTopLane_xor, ← a16_eq, ← a16_eq]

theorem a16x3_xor (a b : Word) : a16x3 (a ^^^ b) = a16x3 a ^^^ a16x3 b := by
  simp only [a16x3, a16_xor]

/-! ### The schedule, element by element -/

/-- One iteration of the recurrence is affine: linear but for the constant, which stays when it is added thrice. -/
theorem nextRoundKey_xor_xor (r : Nat) (a b c a' b' c' : Word) :
    nextRoundKey r (a ^^^ b ^^^ c) (a' ^^^ b' ^^^ c') =
      nextRoundKey r a a' ^^^ nextRoundKey r b b' ^^^ nextRoundKey r c c' := by
  have hthrice (k : Word) : k = k ^^^ k ^^^ k := by rw [BitVec.xor_self, BitVec.zero_xor]
  simp only [nextRoundKey, a16x3_xor]
  conv_lhs => rw [hthrice (BitVec.ofNat 64 (r + 1))]
  ac_rfl

/-- The recurrence inside the expansion, from whatever position it starts. -/
theorem expandFrom_getElem_add_two {n i : Nat} (hi : i + 2 < n) (r : Nat) (a b : Word) :
    (expandFrom n r a b)[i + 2]'(by rw [expandFrom_length]; omega) =
      nextRoundKey (r + i) ((expandFrom n r a b)[i]'(by rw [expandFrom_length]; omega))
        ((expandFrom n r a b)[i + 1]'(by rw [expandFrom_length]; omega)) := by
  induction i generalizing n r a b with
  | zero =>
    obtain ⟨m, rfl⟩ := Nat.exists_eq_add_of_le' hi
    rfl
  | succ i ih =>
    obtain ⟨m, rfl⟩ := Nat.exists_eq_add_of_le' (Nat.one_le_of_lt hi)
    have hnext := ih (n := m) (by omega) (r + 1) b (nextRoundKey r a b)
    rw [Nat.add_right_comm] at hnext
    exact hnext

@[simp] theorem keySchedule_zero (k0 k1 : Word) : (keySchedule k0 k1)[0] = k0 := rfl

@[simp] theorem keySchedule_one (k0 k1 : Word) : (keySchedule k0 k1)[1] = k1 := rfl

theorem keySchedule_add_two (k0 k1 : Word) {r : Nat} (hr : r ≤ 51) :
    (keySchedule k0 k1)[r + 2] = nextRoundKey r (keySchedule k0 k1)[r] (keySchedule k0 k1)[r + 1] := by
  have hstep := expandFrom_getElem_add_two (show r + 2 < 54 by omega) 0 k0 k1
  rw [Nat.zero_add] at hstep
  exact hstep

/-- `KS` is affine over exclusive or: three schedules stand for the sum, so that each constant is added an odd number
of times on both sides (43_key_schedule.md R81 (d)). -/
theorem keySchedule_xor (a0 a1 b0 b1 : Word) {i : Nat} (hi : i < 54) :
    (keySchedule (a0 ^^^ b0) (a1 ^^^ b1))[i] =
      (keySchedule a0 a1)[i] ^^^ (keySchedule b0 b1)[i] ^^^ (keySchedule 0 0)[i] := by
  induction i using Nat.twoStepInduction with
  | zero =>
    simp only [keySchedule_zero]
    exact BitVec.xor_zero.symm
  | one =>
    simp only [keySchedule_one]
    exact BitVec.xor_zero.symm
  | more r ih0 ih1 =>
    have hr : r ≤ 51 := by omega
    rw [keySchedule_add_two _ _ hr, keySchedule_add_two _ _ hr, keySchedule_add_two _ _ hr, keySchedule_add_two _ _ hr,
      ih0 (by omega), ih1 (by omega), nextRoundKey_xor_xor]

/-- The schedule starts with the key, so that it determines the key (43_key_schedule.md R81 (c)). -/
theorem keySchedule_injective {k0 k1 k0' k1' : Word} (h : keySchedule k0 k1 = keySchedule k0' k1') :
    k0 = k0' ∧ k1 = k1' :=
  ⟨congrArg (fun rk : Schedule => rk[0]) h, congrArg (fun rk : Schedule => rk[1]) h⟩

/-! ### The schedule of the zero key -/

theorem zeroKey_two : (keySchedule 0 0)[2] = 0x0000000000000001 := by decide

theorem zeroKey_last : (keySchedule 0 0)[53] = 0x283809a1de8e5001 := by decide +kernel

/-! ### The commands on the schedule -/

theorem exec_kexpE_clear {s : State} (h : s.err = .noError) :
    exec .kexpE s = .next (setSchedule (keySchedule s.key0 s.key1) false 52 s) := by
  rw [exec_kexpE, command_clear h]

theorem exec_kexpD_clear {s : State} (h : s.err = .noError) :
    exec .kexpD s = .next (setSchedule (reverseSchedule (keySchedule s.key0 s.key1)) true 27 s) := by
  rw [exec_kexpD, command_clear h]

/-- With a schedule `KREV` reverses it and inverts `DIR` (43_key_schedule.md R80). -/
theorem exec_krev_clear {s : State} (h : s.err = .noError) (hv : s.kvalid = true) :
    exec .krev s = .next (setSchedule (reverseSchedule s.rk) (!s.dir) 27 s) := by
  rw [exec_krev, command_clear h, if_pos hv, reverseInPlace_eq]

/-- Without one it raises `E_NOKEY` (43_key_schedule.md R80). -/
theorem exec_krev_noKey {s : State} (h : s.err = .noError) (hv : s.kvalid = false) :
    exec .krev s = .next (raise .noKey s) := by
  rw [exec_krev, command_clear h, if_neg (by simp [hv])]

/-- Where a command has just written a schedule, `KREV` overwrites it by its reversal, so that after `KEXP.E` it leaves what
`KEXP.D` derives at once (43_key_schedule.md R78). -/
theorem exec_krev_setSchedule {s : State} (h : s.err = .noError) (rk : Schedule) (d : Bool) (k : BitVec 6) :
    exec .krev (setSchedule rk d k s) = .next (setSchedule (reverseSchedule rk) (!d) 27 s) :=
  exec_krev_clear (s := setSchedule rk d k s) h rfl

/-! ### The statements -/

/-- Settles O34: `A16` is the rotation followed by the involution of the top lane; both are bijective and linear. -/
theorem mixingStepInLanes : Obligations.MixingStepInLanes :=
  ⟨fun _ => rfl, fun w => extractLsb'_mixTopLane (rotl64 w 60) le_rfl,
    fun w => ⟨lane_a16_top w, lane_a16 w (by decide), fun _ hk => lane_a16 w (by omega)⟩, a16_bijective, a16_xor⟩

/-- Settles O35: the recurrence of the expansion, from position 0. -/
theorem scheduleFollowsTheRecurrence : Obligations.ScheduleFollowsTheRecurrence :=
  fun k0 k1 => ⟨keySchedule_zero k0 k1, keySchedule_one k0 k1, fun _ hr => keySchedule_add_two k0 k1 hr⟩

/-- Settles O36: the swaps move the ends inwards, one pair each. -/
theorem reversalInPlaceIsReversal : Obligations.ReversalInPlaceIsReversal :=
  ⟨fun rk _ hi => reverseSchedule_getElem rk hi, reverseInPlace_eq, reverseInPlace_eq, reverseSchedule_reverseSchedule⟩

/-- Settles O37: (a) and (b) by what the two commands answer, (c) by the seeds, (d) by the recurrence. -/
theorem scheduleLaws : Obligations.ScheduleLaws := by
  refine ⟨fun s he => ?_, fun s s' he he' h0 h1 => ?_, fun k0 k1 => ⟨keySchedule_zero k0 k1, keySchedule_one k0 k1⟩,
    fun _ _ _ _ => keySchedule_injective, fun a0 a1 b0 b1 _ hi => keySchedule_xor a0 a1 b0 b1 hi⟩
  · exact ⟨_, _, exec_kexpE_clear he, exec_kexpD_clear he, fun i hi => reverseSchedule_getElem _ hi⟩
  · have hks : keySchedule s.key0 s.key1 = keySchedule s'.key0 s'.key1 := by rw [h0, h1]
    exact ⟨_, _, _, _, exec_kexpE_clear he, exec_kexpE_clear he', hks, exec_kexpD_clear he, exec_kexpD_clear he',
      congrArg reverseSchedule hks⟩

/-- Settles O16: the answered state is written out by `exec_kexpD_clear`; its ends are the seeds, from the reversal. -/
theorem kexpDDerivesTheReversedSchedule : Obligations.KexpDDerivesTheReversedSchedule := by
  refine ⟨fun s he => ?_, fun s he => ?_, fun s he => exec_stopped (by simp) he, commandWord_encode (by simp),
    fun s he h0 h1 => ?_⟩
  · have hrev (i : Nat) (hi : i < 54) := reverseSchedule_getElem (keySchedule s.key0 s.key1) hi
    exact ⟨_, { s.seq with ki := 27 }, rfl, hrev, hrev 53 (by decide), hrev 52 (by decide), exec_kexpD_clear he⟩
  · exact ⟨_, _, exec_kexpE_clear he, exec_krev_setSchedule he .., exec_kexpD_clear he⟩
  · refine ⟨_, exec_kexpD_clear he, ?_⟩
    simp only [setSchedule_rk, reverseSchedule_getElem, h0, h1]
    exact ⟨zeroKey_last, zeroKey_two, keySchedule_one 0 0, keySchedule_zero 0 0⟩

/-- Settles O17: with a schedule the answered state is written out by `exec_krev_clear`, and twice in a row both the
reversal and the inversion undo themselves. -/
theorem krevReversesTheSchedule : Obligations.KrevReversesTheSchedule := by
  refine ⟨fun s he hv => ?_, fun s he hidle hv => ?_, fun s he hv => ?_, fun s he => exec_stopped (by simp) he,
    commandWord_encode (by simp), fun s he h0 h1 => ?_⟩
  · have hrun := exec_krev_clear he hv
    refine ⟨reverseSchedule s.rk, { s.seq with ki := 27 }, rfl, fun i hi => reverseSchedule_getElem s.rk hi, ?_,
      fun hs => (exec_keeps_schedule hs hrun).congr rfl rfl rfl rfl hv⟩
    rw [hrun, setSchedule, ← hv]
  · rw [exec_krev_noKey he hv, raise_clear_of_idle he hidle]
  · exact ⟨_, _, exec_krev_clear he hv, exec_krev_setSchedule he .., reverseSchedule_reverseSchedule s.rk, Bool.not_not s.dir⟩
  · refine ⟨_, _, exec_kexpE_clear he, exec_krev_setSchedule he .., ?_⟩
    simp only [setSchedule_rk, reverseSchedule_getElem, h0, h1]
    refine ⟨zeroKey_last, keySchedule_zero 0 0, ?_⟩
    rw [statusWord, setSchedule_kvalid, setSchedule_dir, setSchedule_err, he]
    rfl

/-- Settles O13: the effect under fail-stop, the one word of the command, and the corner cases. -/
theorem a16x3CommandWritesRes : Obligations.A16x3CommandWritesRes := by
  refine ⟨fun s he => ?_, fun s he => exec_stopped (by simp) he, commandWord_encode (by simp), a16x3_zero,
    by decide, by decide, by decide, by decide, by decide⟩
  rw [exec_a16x3, command_clear he]
  rfl

/-- Settles O15: the answered state is written out by `exec_kexpE_clear`; the first two round keys are the seeds. -/
theorem kexpEDerivesTheSchedule : Obligations.KexpEDerivesTheSchedule :=
  ⟨fun s he => ⟨{ s.seq with ki := 52 }, rfl, exec_kexpE_clear he⟩, fun _ he => exec_stopped (by simp) he,
    commandWord_encode (by simp), fun k0 k1 => ⟨keySchedule_zero k0 k1, keySchedule_one k0 k1⟩, zeroKey_two,
    by decide, by decide⟩

end Sys2Proof.Machine
end

section
/-! SUPPORT and the settled statements about the round function and the block transform (44_round_function.md). First one
round, which an exchange of the halves turns into its own inverse; from it the transform under the reversed keys, by
induction on the keys, and the transform cut short after some of them; then what `BLK` answers; last the statements
themselves. -/

namespace Sys2Proof.Machine

/-! ### The transform and the reversed keys -/

/-- A round undoes itself when the halves change places in between, whatever `F` is: `T_k S T_k = S`
(44_round_function.md R85). -/
theorem cipherRound_swap_cipherRound (p : Word × Word) (k : Word) : cipherRound (cipherRound p k).swap k = p.swap := by
  have hcancel : p.2 ^^^ roundF p.1 ^^^ k ^^^ roundF p.1 ^^^ k = p.2 :=
    calc p.2 ^^^ roundF p.1 ^^^ k ^^^ roundF p.1 ^^^ k
        = p.2 ^^^ ((roundF p.1 ^^^ k) ^^^ (roundF p.1 ^^^ k)) := by ac_rfl
      _ = p.2 := by rw [BitVec.xor_self, BitVec.xor_zero]
  exact congrArg (fun y => (y, p.1)) hcancel

/-- Rounds from any pair, undone key by key from the middle outwards. -/
theorem rounds_reverse_swap_rounds (keys : List Word) (p : Word × Word) :
    keys.reverse.foldl cipherRound (keys.foldl cipherRound p).swap = p.swap := by
  induction keys generalizing p with
  | nil => rfl
  | cons k keys ih => rw [List.reverse_cons, transformWith_append, List.foldl_cons, ih, cipherRound_swap_cipherRound]

/-- The reversed keys undo the transform (44_round_function.md R85 (a)). -/
theorem transformWith_reverse_transformWith (keys : List Word) (b : Word × Word) :
    transformWith keys.reverse (transformWith keys b) = b :=
  rounds_reverse_swap_rounds keys b.swap

theorem toList_reverseSchedule (rk : Schedule) : (reverseSchedule rk).toList = rk.toList.reverse := by
  have hrev : reverseSchedule rk = rk.reverse := by
    ext i hi
    rw [reverseSchedule_getElem rk hi, Vector.getElem_reverse]
  rw [hrev, Vector.toList_reverse]

theorem transformBlock_reverseSchedule_transformBlock (rk : Schedule) (b : Word × Word) :
    transformBlock (reverseSchedule rk) (transformBlock rk b) = b := by
  rw [transformBlock, toList_reverseSchedule]
  exact transformWith_reverse_transformWith rk.toList b

theorem transformBlock_transformBlock_reverseSchedule (rk : Schedule) (b : Word × Word) :
    transformBlock rk (transformBlock (reverseSchedule rk) b) = b := by
  simpa only [reverseSchedule_reverseSchedule] using
    transformBlock_reverseSchedule_transformBlock (reverseSchedule rk) b

theorem transformBlock_bijective (rk : Schedule) : Function.Bijective (transformBlock rk) :=
  Function.bijective_iff_has_inverse.2 ⟨transformBlock (reverseSchedule rk),
    transformBlock_reverseSchedule_transformBlock rk, transformBlock_transformBlock_reverseSchedule rk⟩

/-! ### The transform, round by round -/

/-- The working registers `(X, Y)` after the first `r` rounds: the transform with the first `r` round keys alone
(44_round_function.md R84). -/
def blockAfterRounds (rk : Schedule) (b : Word × Word) (r : Nat) : Word × Word := transformWith (rk.toList.take r) b

theorem blockAfterRounds_zero (rk : Schedule) (b : Word × Word) : blockAfterRounds rk b 0 = b.swap := rfl

theorem blockAfterRounds_succ (rk : Schedule) (b : Word × Word) {r : Nat} (hr : r < 54) :
    blockAfterRounds rk b (r + 1) = cipherRound (blockAfterRounds rk b r) rk[r] := by
  have hlen : r < rk.toList.length := by simpa using hr
  rw [blockAfterRounds, List.take_succ_eq_append_getElem hlen, Vector.getElem_toList]
  exact transformWith_append (rk.toList.take r) rk[r] b.swap

theorem blockAfterRounds_all (rk : Schedule) (b : Word × Word) : blockAfterRounds rk b 54 = transformBlock rk b :=
  congrArg (transformWith · b) (List.take_of_length_le (by simp))

/-! ### The command on the block -/

/-- With a schedule `BLK` transforms the block in its registers (44_round_function.md R87). -/
theorem exec_blk_clear {s : State} (h : s.err = .noError) (hv : s.kvalid = true) :
    exec .blk s = .next (setBlock (transformBlock s.rk (s.blk0, s.blk1)) s) := by
  rw [exec_blk, command_clear h, if_pos hv]

/-- Without one it raises `E_NOKEY` (44_round_function.md R87). -/
theorem exec_blk_noKey {s : State} (h : s.err = .noError) (hv : s.kvalid = false) :
    exec .blk s = .next (raise .noKey s) := by
  rw [exec_blk, command_clear h, if_neg (by simp [hv])]

/-! ### The statements -/

/-- Settles O19: the two `BLK` transform under the schedule of `KEXP.E` and under its reversal, which undo each other. -/
theorem blkRoundTripThroughKrev : Obligations.BlkRoundTripThroughKrev := by
  intro s he
  have hround := transformBlock_reverseSchedule_transformBlock (keySchedule s.key0 s.key1) (s.blk0, s.blk1)
  refine ⟨_, _, _, _, exec_kexpE_clear he, exec_blk_clear he rfl, exec_krev_clear he rfl, exec_blk_clear he rfl, ?_⟩
  simp [hround]

/-- Settles O39: the two sequences are the halves of the working registers, round by round. -/
theorem blockTransformRunsTheRounds : Obligations.BlockTransformRunsTheRounds := fun rk w0 w1 =>
  ⟨fun r => (blockAfterRounds rk (w0, w1) r).1, fun r => (blockAfterRounds rk (w0, w1) r).2,
    congrArg Prod.fst (blockAfterRounds_zero rk (w0, w1)), congrArg Prod.snd (blockAfterRounds_zero rk (w0, w1)),
    fun _ hr => blockAfterRounds_succ rk (w0, w1) hr, (blockAfterRounds_all rk (w0, w1)).symm⟩

/-- Settles O40: round by round from the middle outwards; the transform under the reversed schedule is the inverse. -/
theorem blockTransformRoundTrip : Obligations.BlockTransformRoundTrip :=
  ⟨transformWith_reverse_transformWith, fun rk b => ⟨transformBlock_reverseSchedule_transformBlock rk b,
    transformBlock_transformBlock_reverseSchedule rk b⟩, transformBlock_bijective⟩

/-- Settles O14: the effect under fail-stop, the one word of the command, the corner cases, and the example. -/
theorem frndCommandWritesRes : Obligations.FrndCommandWritesRes := by
  refine ⟨fun s he => ?_, fun s he => exec_stopped (by simp) he, commandWord_encode (by simp), roundF_zero, by decide,
    by decide, by decide, by decide, by decide, by decide⟩
  rw [exec_frnd, command_clear he]
  rfl

/-- Settles O18: with a schedule the answered state is written out by `exec_blk_clear`, without one by
`exec_blk_noKey`. -/
theorem blkTransformsTheRegisterBlock : Obligations.BlkTransformsTheRegisterBlock := by
  refine ⟨fun s he hv => ?_, fun s he hidle hv => ?_, fun s he => exec_stopped (by simp) he,
    commandWord_encode (by simp), by decide +kernel⟩
  · exact ⟨s.seq.afterBlock _ _, rfl, exec_blk_clear he hv⟩
  · rw [exec_blk_noKey he hv, raise_clear_of_idle he hidle]

end Sys2Proof.Machine
end

section
/-! SUPPORT and the settled statements about the ECB block-mode controller (45_ecb_controller.md). First a block as sixteen
bytes, from which the laws of `ECBF` follow block by block; then the bytes of a Buffer; then which error `ECB` raises, in the
words of the spec, and what it answers when it raises none; last the statements themselves. -/

namespace Sys2Proof.Machine

/-! ### A block as sixteen bytes -/

theorem byteOf_packBytes (f : Nat → Byte) {k : Nat} (hk : k < 8) : byteOf (packBytes f 8) k = f k := by
  refine BitVec.eq_of_getLsbD_eq fun i hi => ?_
  obtain ⟨hdiv, hmod⟩ : (8 * k + i) / 8 = k ∧ (8 * k + i) % 8 = i := by omega
  rw [byteOf_getLsbD, packBytes_getLsbD f 8 (by omega), hdiv, hmod]
  simp [hi, show 8 * k + i < 8 * 8 by omega]

theorem byteOf_wordOfBytes (bytes : List Byte) {k : Nat} (hk : k < 8) : byteOf (wordOfBytes bytes) k = bytes.getD k 0 :=
  byteOf_packBytes (bytes.getD · 0) hk

/-- The block read from the first sixteen bytes of a sequence (20_memory.md R34). -/
def blockOfBytes (bytes : List Byte) : Word × Word := (wordOfBytes bytes, wordOfBytes (bytes.drop 8))

/-- The sixteen bytes of a block (20_memory.md R34). -/
def bytesOfBlock (o : Word × Word) : List Byte := bytesOfWord o.1 ++ bytesOfWord o.2

theorem transformBytes_eq (rk : Schedule) (block : List Byte) :
    transformBytes rk block = bytesOfBlock (transformBlock rk (blockOfBytes block)) := rfl

theorem bytesOfBlock_eq_map (o : Word × Word) : bytesOfBlock o = (List.range 16).map (blockByte o) := rfl

@[simp] theorem bytesOfBlock_length (o : Word × Word) : (bytesOfBlock o).length = 16 := rfl

theorem blockByte_blockOfBytes (bytes : List Byte) {k : Nat} (hk : k < 16) :
    blockByte (blockOfBytes bytes) k = bytes.getD k 0 := by
  unfold blockByte blockOfBytes
  split
  next hlow => exact byteOf_wordOfBytes bytes hlow
  next hhigh =>
    rw [byteOf_wordOfBytes _ (by omega), List.getD_eq_getElem?_getD, List.getElem?_drop, ← List.getD_eq_getElem?_getD,
      show 8 + (k - 8) = k by omega]

/-- A block is its sixteen bytes. -/
theorem block_ext_of_bytes {o p : Word × Word} (h : ∀ k, k < 16 → blockByte o k = blockByte p k) : o = p := by
  refine Prod.ext (word_ext_of_bytes fun k hk => ?_) (word_ext_of_bytes fun k hk => ?_)
  · simpa [blockByte, hk] using h k (by omega)
  · simpa [blockByte] using h (8 + k) (by omega)

theorem blockOfBytes_bytesOfBlock (o : Word × Word) : blockOfBytes (bytesOfBlock o) = o :=
  block_ext_of_bytes fun k hk => by simp [blockByte_blockOfBytes _ hk, bytesOfBlock_eq_map, hk]

theorem bytesOfBlock_blockOfBytes {bytes : List Byte} (h : bytes.length = 16) :
    bytesOfBlock (blockOfBytes bytes) = bytes := by
  refine List.ext_getElem h.symm fun k hk hk' => ?_
  simp only [bytesOfBlock_eq_map, List.getElem_map, List.getElem_range]
  rw [blockByte_blockOfBytes _ hk, List.getD_eq_getElem _ _ hk']

@[simp] theorem transformBytes_length (rk : Schedule) (block : List Byte) : (transformBytes rk block).length = 16 := rfl

/-- The reversed schedule undoes the transform of a block of bytes (44_round_function.md R85 (a)). -/
theorem transformBytes_reverse {block : List Byte} (h : block.length = 16) (rk : Schedule) :
    transformBytes (reverseSchedule rk) (transformBytes rk block) = block := by
  simp only [transformBytes_eq, blockOfBytes_bytesOfBlock, transformBlock_reverseSchedule_transformBlock]
  exact bytesOfBlock_blockOfBytes h

/-! ### The transform of `n` blocks -/

@[simp] theorem transformBlocks_length (rk : Schedule) (n : Nat) (bytes : List Byte) :
    (transformBlocks rk n bytes).length = 16 * n := by
  induction n generalizing bytes with
  | zero => rfl
  | succ n ih => rw [transformBlocks, List.length_append, transformBytes_length, ih]; omega

/-- Blocks added at the end are transformed on their own. -/
theorem transformBlocks_append (rk : Schedule) {m : Nat} {a : List Byte} (ha : a.length = 16 * m) (n : Nat)
    (b : List Byte) : transformBlocks rk (m + n) (a ++ b) = transformBlocks rk m a ++ transformBlocks rk n b := by
  induction m generalizing a with
  | zero =>
    obtain rfl : a = [] := List.eq_nil_of_length_eq_zero ha
    rw [Nat.zero_add, List.nil_append, transformBlocks, List.nil_append]
  | succ m ih =>
    rw [Nat.succ_add, transformBlocks, transformBlocks, List.take_append_of_le_length (by omega),
      List.drop_append_of_le_length (by omega), ih (by rw [List.length_drop]; omega), List.append_assoc]

/-- The reversed schedule undoes the transform of every block. -/
theorem transformBlocks_reverse (rk : Schedule) {n : Nat} {bytes : List Byte} (h : bytes.length = 16 * n) :
    transformBlocks (reverseSchedule rk) n (transformBlocks rk n bytes) = bytes := by
  induction n generalizing bytes with
  | zero => exact (List.eq_nil_of_length_eq_zero h).symm
  | succ n ih =>
    have hfirst : (bytes.take 16).length = 16 := by rw [List.length_take]; omega
    rw [transformBlocks, transformBlocks, List.take_left' (transformBytes_length ..),
      List.drop_left' (transformBytes_length ..), transformBytes_reverse hfirst, ih (by rw [List.length_drop]; omega),
      List.take_append_drop]

/-- Without its first `i` blocks the output is that of the other blocks. -/
theorem drop_transformBlocks (rk : Schedule) (n i : Nat) (bytes : List Byte) :
    (transformBlocks rk n bytes).drop (16 * i) = transformBlocks rk (n - i) (bytes.drop (16 * i)) := by
  induction i generalizing n bytes with
  | zero => rfl
  | succ i ih =>
    cases n with
    | zero => rw [Nat.zero_sub, transformBlocks, List.drop_nil, transformBlocks]
    | succ n =>
      rw [transformBlocks, show 16 * (i + 1) = 16 + 16 * i by omega, ← List.drop_drop,
        List.drop_left' (transformBytes_length ..), ih, List.drop_drop, Nat.succ_sub_succ]

/-- The first output block is that of the first input block. -/
theorem take_transformBlocks (rk : Schedule) (n : Nat) (bytes : List Byte) :
    (transformBlocks rk n bytes).take 16 = if n = 0 then [] else transformBytes rk (bytes.take 16) := by
  cases n with
  | zero => rfl
  | succ n => rw [transformBlocks, List.take_left' (transformBytes_length ..), if_neg (Nat.succ_ne_zero n)]

/-! ### `ECBF` -/

theorem ecbf_eq_some (rk : Schedule) {n : Nat} {bytes : List Byte} (h : bytes.length = 16 * n) :
    ecbf rk bytes = some (transformBlocks rk n bytes) := by
  rw [ecbf, if_pos (by omega), h, Nat.mul_div_cancel_left n (by decide)]

theorem ecbf_eq_none (rk : Schedule) {bytes : List Byte} (h : bytes.length % 16 ≠ 0) : ecbf rk bytes = none := if_neg h

/-- A buffer that has a transform is a whole number of blocks. -/
theorem ecbf_eq_some_iff {rk : Schedule} {bytes out : List Byte} :
    ecbf rk bytes = some out ↔ ∃ n, bytes.length = 16 * n ∧ out = transformBlocks rk n bytes := by
  constructor
  · intro h
    by_cases hwhole : bytes.length % 16 = 0
    · obtain ⟨n, hn⟩ := Nat.dvd_of_mod_eq_zero hwhole
      rw [ecbf_eq_some rk hn, Option.some_inj] at h
      exact ⟨n, hn, h.symm⟩
    · rw [ecbf_eq_none rk hwhole] at h
      cases h
  · rintro ⟨n, hn, rfl⟩
    exact ecbf_eq_some rk hn

theorem ecbf_append (rk : Schedule) {a b x y : List Byte} (ha : ecbf rk a = some x) (hb : ecbf rk b = some y) :
    ecbf rk (a ++ b) = some (x ++ y) := by
  obtain ⟨m, hm, rfl⟩ := ecbf_eq_some_iff.1 ha
  obtain ⟨n, hn, rfl⟩ := ecbf_eq_some_iff.1 hb
  rw [← transformBlocks_append rk hm n b]
  exact ecbf_eq_some rk (by rw [List.length_append]; omega)

/-- The reversed schedule undoes `ECBF` (45_ecb_controller.md R89 (b)). -/
theorem ecbf_reverse {rk : Schedule} {bytes out : List Byte} (h : ecbf rk bytes = some out) :
    ecbf (reverseSchedule rk) out = some bytes := by
  obtain ⟨n, hn, rfl⟩ := ecbf_eq_some_iff.1 h
  rw [ecbf_eq_some _ (transformBlocks_length rk n bytes), transformBlocks_reverse rk hn]

theorem ecbf_length {rk : Schedule} {bytes out : List Byte} (h : ecbf rk bytes = some out) :
    out.length = bytes.length := by
  obtain ⟨n, hn, rfl⟩ := ecbf_eq_some_iff.1 h
  rw [transformBlocks_length, hn]

/-- Output block `i` is the transform of input block `i`, and both are empty past the end. -/
theorem ecbf_block {rk : Schedule} {bytes out : List Byte} (h : ecbf rk bytes = some out) (i : Nat) :
    (out.drop (16 * i)).take 16 =
      if (bytes.drop (16 * i)).take 16 = [] then [] else transformBytes rk ((bytes.drop (16 * i)).take 16) := by
  obtain ⟨n, hn, rfl⟩ := ecbf_eq_some_iff.1 h
  rw [drop_transformBlocks, take_transformBlocks]
  refine if_congr ?_ rfl rfl
  rw [← List.length_eq_zero_iff, List.length_take, List.length_drop]
  omega

/-! ### The bytes of a Buffer -/

@[simp] theorem bufferBytes_length (m : Memory) (a len : Nat) : (bufferBytes m a len).length = len := by
  simp [bufferBytes]

theorem bufferBytes_add (m : Memory) (a k n : Nat) :
    bufferBytes m a (k + n) = bufferBytes m a k ++ bufferBytes m (a + k) n := by
  simp [bufferBytes, List.range_add, Nat.add_assoc]

theorem bufferBytes_eq_iff {m m' : Memory} {a b len : Nat} :
    bufferBytes m a len = bufferBytes m' b len ↔ ∀ k, k < len → readByte m (a + k) = readByte m' (b + k) := by
  simp [bufferBytes]

/-- The sixteen bytes at an address, taken as a block, are the block read there. -/
theorem blockOfBytes_bufferBytes (m : Memory) (a : Nat) : blockOfBytes (bufferBytes m a 16) = readBlock m a := by
  refine block_ext_of_bytes fun k hk => ?_
  rw [blockByte_blockOfBytes _ hk, List.getD_eq_getElem _ _ (by simpa using hk)]
  unfold blockByte readBlock
  split
  next hlow => simp [bufferBytes, byteOf_readWord m a hlow]
  next hhigh => simp [bufferBytes, byteOf_readWord m (a + 8) (show k - 8 < 8 by omega), show a + 8 + (k - 8) = a + k by omega]

/-- Where every output block holds the transform of its input block, the output Buffer holds the transform of the input
Buffer. -/
theorem transformBlocks_bufferBytes {rk : Schedule} {m m' : Memory} {n a b : Nat}
    (h : ∀ i, i < n → ∀ k, k < 16 →
      readByte m' (b + 16 * i + k) = blockByte (transformBlock rk (readBlock m (a + 16 * i))) k) :
    transformBlocks rk n (bufferBytes m a (16 * n)) = bufferBytes m' b (16 * n) := by
  induction n generalizing a b with
  | zero => rfl
  | succ n ih =>
    have hfirst : transformBytes rk (bufferBytes m a 16) = bufferBytes m' b 16 := by
      rw [transformBytes_eq, blockOfBytes_bufferBytes, bytesOfBlock_eq_map]
      exact List.map_congr_left fun k hk => (h 0 (by omega) k (List.mem_range.1 hk)).symm
    have hrest := ih (a := a + 16) (b := b + 16) fun i hi k hk => by
      simpa only [Nat.mul_add_one, Nat.add_comm, Nat.add_left_comm, Nat.add_assoc] using h (i + 1) (by omega) k hk
    rw [show 16 * (n + 1) = 16 + 16 * n by omega, bufferBytes_add, bufferBytes_add, transformBlocks,
      List.take_left' (bufferBytes_length ..), List.drop_left' (bufferBytes_length ..), hfirst, hrest]

/-! ### The checks of `ECB` -/

/-- The presence check in the words of 20_memory.md R41: a region fails it when one of its bytes does not exist. -/
theorem regionPresent_eq_false_iff {holes : List Hole} {base len : Nat} :
    regionPresent holes base len = false ↔ ∃ a, InRegion base len a ∧ memPresent holes a = false := by
  have hmeets (h : Hole) : h.meets base len = true ↔ ∃ a, InRegion base len a ∧ h.covers a = true := by
    simp only [Hole.meets, Hole.covers, InRegion, decide_eq_true_eq]
    constructor
    · intro hlt
      exact ⟨max h.base base, by omega⟩
    · rintro ⟨a, hin, hcov⟩
      omega
  simp only [regionPresent, memPresent, Bool.not_eq_false', List.any_eq_true, hmeets]
  constructor
  · rintro ⟨h, hh, a, hin, hcov⟩
    exact ⟨a, hin, h, hh, hcov⟩
  · rintro ⟨a, hin, h, hh, hcov⟩
    exact ⟨h, hh, a, hin, hcov⟩

theorem low4_ne_zero_iff (w : Word) : w.extractLsb' 0 4 ≠ 0 ↔ w.toNat % 16 ≠ 0 := by
  rw [not_iff_not, ← BitVec.toNat_inj]
  simp

theorem passesTop_iff {base len : Nat} : passesTop base len = true ↔ 2 ^ 64 < base + len := decide_eq_true_iff

/-- The check that the two Buffers exist, both as one. -/
def buffersPresent (s : State) : Bool :=
  regionPresent s.absent s.src.toNat s.len.toNat && regionPresent s.absent s.dst.toNat s.len.toNat

theorem buffersPresent_eq_false_iff {s : State} : buffersPresent s = false ↔
    ∃ a, (InRegion s.src.toNat s.len.toNat a ∨ InRegion s.dst.toNat s.len.toNat a) ∧ memPresent s.absent a = false := by
  simp only [buffersPresent, Bool.and_eq_false_iff, regionPresent_eq_false_iff, or_and_right, exists_or]

/-- The error of `ECB`, each check in the words of the spec (45_ecb_controller.md R91, 20_memory.md R39 to R41). -/
theorem ecbError_eq (s : State) : ecbError s =
    if s.kvalid = false then .noKey
    else if s.len.toNat % 16 ≠ 0 then .badLen
    else if s.len.toNat = 0 then .noError
    else if 2 ^ 64 < s.src.toNat + s.len.toNat ∨ 2 ^ 64 < s.dst.toNat + s.len.toNat then .range
    else if s.dst ≠ s.src ∧ s.dst.toNat < s.src.toNat + s.len.toNat ∧ s.src.toNat < s.dst.toNat + s.len.toNat then .overlap
    else if buffersPresent s = false then .bus
    else .noError := by
  have htop : (passesTop s.src.toNat s.len.toNat || passesTop s.dst.toNat s.len.toNat) = true ↔
      2 ^ 64 < s.src.toNat + s.len.toNat ∨ 2 ^ 64 < s.dst.toNat + s.len.toNat := by
    rw [Bool.or_eq_true, passesTop_iff, passesTop_iff]
  have hoverlap : partlyOverlap s.src.toNat s.dst.toNat s.len.toNat = true ↔
      s.dst ≠ s.src ∧ s.dst.toNat < s.src.toNat + s.len.toNat ∧ s.src.toNat < s.dst.toNat + s.len.toNat := by
    rw [partlyOverlap, decide_eq_true_iff, BitVec.toNat_ne_iff_ne]
  have hpresent : (!buffersPresent s) = true ↔ buffersPresent s = false := by rw [Bool.not_eq_true']
  exact if_congr (by rw [Bool.not_eq_true']) rfl <| if_congr (low4_ne_zero_iff s.len) rfl <| if_congr Iff.rfl rfl <|
    if_congr htop rfl <| if_congr hoverlap rfl <| if_congr hpresent rfl rfl

/-- The conditions of R91 speak of the Buffers, the schedule's flag and the platform only. -/
theorem EcbAllowed.congr {s t : State} (h : EcbAllowed s) (hkvalid : t.kvalid = true) (hsrc : t.src = s.src)
    (hdst : t.dst = s.dst) (hlen : t.len = s.len) (habsent : t.absent = s.absent) : EcbAllowed t := by
  obtain ⟨-, hwhole, htop, hapart, hpresent⟩ := h
  rw [← hlen] at hwhole
  rw [← hsrc, ← hdst, ← hlen] at htop hapart hpresent
  exact ⟨hkvalid, hwhole, htop, hapart, habsent ▸ hpresent⟩

theorem ecbError_of_allowed {s : State} (h : EcbAllowed s) : ecbError s = .noError := by
  rw [ecbError_eq, if_neg (by simp [h.schedule]), if_neg (not_not.2 h.wholeBlocks)]
  by_cases hlen : s.len.toNat = 0
  · exact if_pos hlen
  · have hpos : 0 < s.len.toNat := Nat.pos_of_ne_zero hlen
    have htop := h.belowTop hpos
    have hapart := h.sameOrApart hpos
    rw [if_neg hlen, if_neg (by omega), if_neg, if_neg]
    · rw [buffersPresent_eq_false_iff]
      rintro ⟨a, hin, hmissing⟩
      exact absurd (h.present hpos a hin) (by simp [hmissing])
    · rintro ⟨hne, hsrc, hdst⟩
      have := hapart.resolve_left hne
      omega

/-! ### What `ECB` answers -/

/-- A check that fails is recorded, with `NBLK` = 0, and nothing else changes (60_exceptions.md R98). -/
theorem exec_ecb_raise {s : State} (he : s.err = .noError) (hidle : s.seq.phase = .idle) {c : ErrCode}
    (hc : ecbError s = c) (hne : c ≠ .noError) : exec .ecb s = .next { s with nblk := 0, err := c } := by
  subst hc
  rw [exec_ecb, command_clear he, ecbEffect_raise hne, raise_clear_of_idle (s := setNblk 0 s) he hidle]
  rfl

/-- `LEN / 16` as a Word, in the two ways it is written (45_ecb_controller.md R91). -/
theorem blockCount_setWidth (s : State) : (blockCount s).setWidth 64 = s.len >>> 4 := by
  refine BitVec.eq_of_toNat_eq ?_
  rw [BitVec.toNat_setWidth_of_le (by decide), blockCount_toNat, BitVec.toNat_ushiftRight, Nat.shiftRight_eq_div_pow]

/-- The memory an allowed `ECB` leaves. -/
def ecbMemory (s : State) : Memory := (ecbProcess (setNblk 0 s)).mem

/-- The state an allowed `ECB` answers: what it changes (45_ecb_controller.md R91). -/
def afterEcb (s : State) : State :=
  { s with mem := ecbMemory s, nblk := s.len >>> 4, seq := (ecbProcess (setNblk 0 s)).seq }

@[simp] theorem afterEcb_src (s : State) : (afterEcb s).src = s.src := rfl
@[simp] theorem afterEcb_dst (s : State) : (afterEcb s).dst = s.dst := rfl
@[simp] theorem afterEcb_len (s : State) : (afterEcb s).len = s.len := rfl
@[simp] theorem afterEcb_rk (s : State) : (afterEcb s).rk = s.rk := rfl
@[simp] theorem afterEcb_dir (s : State) : (afterEcb s).dir = s.dir := rfl
@[simp] theorem afterEcb_kvalid (s : State) : (afterEcb s).kvalid = s.kvalid := rfl
@[simp] theorem afterEcb_err (s : State) : (afterEcb s).err = s.err := rfl
@[simp] theorem afterEcb_nblk (s : State) : (afterEcb s).nblk = s.len >>> 4 := rfl
@[simp] theorem afterEcb_mem (s : State) : (afterEcb s).mem = ecbMemory s := rfl
@[simp] theorem afterEcb_absent (s : State) : (afterEcb s).absent = s.absent := rfl

/-- When its conditions hold `ECB` completes (45_ecb_controller.md R91). -/
theorem exec_ecb_allowed {s : State} (he : s.err = .noError) (h : EcbAllowed s) : exec .ecb s = .next (afterEcb s) := by
  rw [exec_ecb, command_clear he, ecbEffect_run (ecbError_of_allowed h), ecbProcess_frame, afterEcb,
    ← blockCount_setWidth]
  rfl

/-- With `LEN` = 0 no block is processed. -/
theorem ecbMemory_of_len_zero {s : State} (h : s.len = 0) : ecbMemory s = s.mem := by
  have hcount : (blockCount (setNblk 0 s)).toNat = 0 := by rw [blockCount_toNat, setNblk_len, h]; rfl
  rw [ecbMemory, ecbProcess, hcount]
  rfl

/-- The memory an allowed `ECB` leaves holds the processed blocks. -/
theorem ecbMemory_holds {s : State} (hm : Memory.wf s.mem = true) (h : EcbAllowed s) :
    HoldsBlocks s (List.range (s.len.toNat / 16)) (ecbMemory s) := by
  have hentered : EcbAllowed (enterBlocks (setNblk 0 s)) :=
    h.congr h.schedule rfl rfl rfl rfl
  have hdone := ecbBlocks_hold (s := enterBlocks (setNblk 0 s)) hm hentered List.nodup_range fun _ => List.mem_range.1
  have hcount : (blockCount (setNblk 0 s)).toNat = s.len.toNat / 16 := blockCount_toNat s
  rw [ecbMemory, ecbProcess, hcount]
  exact ⟨hdone.canonical, hdone.stored, hdone.kept⟩

/-- The output Buffer holds `ECBF` of the input Buffer (45_ecb_controller.md R91). -/
theorem ecbf_ecbMemory {s : State} (hm : Memory.wf s.mem = true) (h : EcbAllowed s) :
    ecbf s.rk (bufferBytes s.mem s.src.toNat s.len.toNat) =
      some (bufferBytes (ecbMemory s) s.dst.toNat s.len.toNat) := by
  have hstored := (ecbMemory_holds hm h).stored
  have hlen : s.len.toNat = 16 * (s.len.toNat / 16) := by have := h.wholeBlocks; omega
  rw [ecbf_eq_some s.rk ((bufferBytes_length ..).trans hlen), hlen]
  simp only [Nat.mul_div_cancel_left _ (show 0 < 16 by decide)]
  exact congrArg some (transformBlocks_bufferBytes fun i hi k hk => hstored i (List.mem_range.2 hi) k hk)

/-- Every byte outside the output Buffer stays (45_ecb_controller.md R91). -/
theorem readByte_ecbMemory_outside {s : State} (hm : Memory.wf s.mem = true) (h : EcbAllowed s) {a : Nat}
    (ha : ¬ InRegion s.dst.toNat s.len.toNat a) : readByte (ecbMemory s) a = readByte s.mem a := by
  refine (ecbMemory_holds hm h).kept a fun i hi hin => ha ?_
  rw [List.mem_range] at hi
  unfold InRegion blockTarget at *
  omega

/-- `KREV` after `ECB` leaves the conditions of R91 as they were. -/
theorem EcbAllowed.afterEcb_krev {s : State} (h : EcbAllowed s) (d : Bool) (k : BitVec 6) :
    EcbAllowed (setSchedule (reverseSchedule s.rk) d k (afterEcb s)) :=
  h.congr (setSchedule_kvalid ..) (by simp) (by simp) (by simp) (by simp)

/-- In place, a second `ECB` under the reversed schedule restores the memory (45_ecb_controller.md R89 (b)). -/
theorem ecbMemory_afterEcb_krev {s : State} (hm : Memory.wf s.mem = true) (h : EcbAllowed s) (hsame : s.dst = s.src)
    (d : Bool) (k : BitVec 6) : ecbMemory (setSchedule (reverseSchedule s.rk) d k (afterEcb s)) = s.mem := by
  have hagain := h.afterEcb_krev d k
  have hwf : Memory.wf (setSchedule (reverseSchedule s.rk) d k (afterEcb s)).mem = true :=
    (ecbMemory_holds hm h).canonical
  refine memory_ext (ecbMemory_holds hwf hagain).canonical hm fun a => ?_
  by_cases ha : InRegion s.dst.toNat s.len.toNat a
  · have hback := ecbf_ecbMemory hwf hagain
    simp only [setSchedule_rk, setSchedule_mem, setSchedule_src, setSchedule_dst, setSchedule_len, afterEcb_mem,
      afterEcb_src, afterEcb_dst, afterEcb_len, ← hsame] at hback
    rw [ecbf_reverse (ecbf_ecbMemory hm h), Option.some_inj, ← hsame, bufferBytes_eq_iff] at hback
    obtain ⟨hlow, hhigh⟩ := ha
    obtain ⟨j, rfl⟩ := Nat.exists_eq_add_of_le hlow
    exact (hback j (by omega)).symm
  · exact (readByte_ecbMemory_outside hwf hagain (by simpa using ha)).trans (readByte_ecbMemory_outside hm h ha)

/-! ### The statements -/

/-- Settles O8: the effect is the identity, under fail-stop or not, and 0 is the one word of the command. -/
theorem nopChangesNothing : Obligations.NopChangesNothing := by
  refine ⟨fun s => ?_, commandWord_encode (by simp)⟩
  rw [exec_nop, command, ite_self]

/-- Settles O20: the effect needs no premise, every other word is under fail-stop, and the example is bit by bit. -/
theorem clrerrClearsTheErrorOnly : Obligations.ClrerrClearsTheErrorOnly := by
  refine ⟨exec_clrerr, commandWord_encode (by simp), fun v s he hv => runCommand_stopped hv he, fun s h => ?_⟩
  have hkvalid : s.kvalid = true := by
    have hbit := statusWord_getLsbD s 0
    rw [h] at hbit
    exact hbit.symm
  have hdir : s.dir = false := by
    have hbit := statusWord_getLsbD s 1
    rw [h] at hbit
    exact hbit.symm
  simp [statusWord, hkvalid, hdir, ErrCode.code]

/-- Settles O21: the answered state is written out by `exec_ecb_allowed`. -/
theorem ecbCompletesWhenAllowed : Obligations.EcbCompletesWhenAllowed := fun s he h =>
  ⟨ecbMemory s, _, ecbProcess_phase (setNblk 0 s), exec_ecb_allowed he h, ecbMemory_of_len_zero⟩

/-- Settles O22: the checks in their order, each failing while those before it pass. -/
theorem ecbRaisesTheFirstErrorThatApplies : Obligations.EcbRaisesTheFirstErrorThatApplies := by
  intro s he hidle
  refine ⟨fun hkey => ?_, fun hkey hlen => ?_, fun hkey hlen hpos htop => ?_,
    fun hkey hlen hpos hsrc hdst hne hlow hhigh => ?_, fun hkey hlen hpos hsrc hdst hapart hmissing => ?_⟩
  · refine exec_ecb_raise he hidle ?_ (by decide)
    rw [ecbError_eq, if_pos hkey]
  · refine exec_ecb_raise he hidle ?_ (by decide)
    rw [ecbError_eq, if_neg (by simp [hkey]), if_pos hlen]
  · refine exec_ecb_raise he hidle ?_ (by decide)
    rw [ecbError_eq, if_neg (by simp [hkey]), if_neg (by omega), if_neg (by omega), if_pos htop]
  · refine exec_ecb_raise he hidle ?_ (by decide)
    rw [ecbError_eq, if_neg (by simp [hkey]), if_neg (by omega), if_neg (by omega), if_neg (by omega),
      if_pos ⟨hne, hlow, hhigh⟩]
  · refine exec_ecb_raise he hidle ?_ (by decide)
    have hno : ¬ (s.dst ≠ s.src ∧ s.dst.toNat < s.src.toNat + s.len.toNat ∧ s.src.toNat < s.dst.toNat + s.len.toNat) := by
      rintro ⟨hne, hlow, hhigh⟩
      have := hapart.resolve_left hne
      omega
    rw [ecbError_eq, if_neg (by simp [hkey]), if_neg (by omega), if_neg (by omega), if_neg (by omega), if_neg hno,
      if_pos (buffersPresent_eq_false_iff.2 hmissing)]

/-- Settles O23: from what the block loop holds, block by block. -/
theorem ecbTransformsTheBufferOnly : Obligations.EcbTransformsTheBufferOnly := fun _ he hm h =>
  ⟨_, exec_ecb_allowed he h, ecbf_ecbMemory hm h, fun _ => readByte_ecbMemory_outside hm h⟩

/-- Settles O24: the checks read nothing that the first two commands change, so that the second `ECB` runs too. -/
theorem ecbInPlaceRoundTrip : Obligations.EcbInPlaceRoundTrip := by
  intro s he hm h hsame
  have hkrev : exec .krev (afterEcb s) = .next (setSchedule (reverseSchedule s.rk) (!s.dir) 27 (afterEcb s)) := by
    simpa only [afterEcb_rk, afterEcb_dir] using exec_krev_clear (s := afterEcb s) (by simp [he]) (by simp [h.schedule])
  have hagain := exec_ecb_allowed (by simp [he]) (h.afterEcb_krev (!s.dir) 27)
  exact ⟨_, _, _, exec_ecb_allowed he h, hkrev, hagain, ecbMemory_afterEcb_krev hm h hsame .., by simp⟩

/-- Settles O26: each law block by block. -/
theorem ecbfLaws : Obligations.EcbfLaws := by
  refine ⟨fun rk a b ha hb => ?_, fun rk bytes h => ?_, fun rk => rfl, fun rk bytes out i j h hij => ?_,
    fun rk _ => ecbf_eq_none rk⟩
  · obtain ⟨m, hm⟩ := Nat.dvd_of_mod_eq_zero ha
    obtain ⟨n, hn⟩ := Nat.dvd_of_mod_eq_zero hb
    exact ⟨_, _, ecbf_eq_some rk hm, ecbf_eq_some rk hn, ecbf_append rk (ecbf_eq_some rk hm) (ecbf_eq_some rk hn)⟩
  · obtain ⟨n, hn⟩ := Nat.dvd_of_mod_eq_zero h
    have hout := ecbf_eq_some rk hn
    exact ⟨_, hout, ecbf_length hout, ecbf_reverse hout⟩
  · rw [ecbf_block h, ecbf_block h, hij]

end Sys2Proof.Machine
end

section
/-! SUPPORT and the settled statement about the sequencer run loop by loop (45_ecb_controller.md R93). Each loop has the state
after `n` of its iterations written out, one lemma that an iteration goes from `n` to `n + 1`, and one for its exit; the
commands are then assembled from their loops. -/

namespace Sys2Proof.Machine

/-! ### Iterations -/

/-- A loop whose body takes `c` ticks, from the states before and after its body. -/
theorem ticks_loop {i : Instr} {c n : Nat} {f : Nat → State} (h : ∀ k, k < n → ticks i c (f k) = f (k + 1)) :
    ticks i (c * n) (f 0) = f n := by
  induction n with
  | zero => rfl
  | succ n ih => rw [Nat.mul_succ, ticks_add, ih fun k hk => h k (by omega), h n (by omega)]

/-- A loop whose body is one tick. -/
theorem ticks_loop_one {i : Instr} {n : Nat} {f : Nat → State} (h : ∀ k, k < n → tick i (f k) = f (k + 1)) :
    ticks i n (f 0) = f n := by
  simpa only [Nat.one_mul] using ticks_loop (c := 1) h

theorem ticks_one (i : Instr) (s : State) : ticks i 1 s = tick i s := rfl

theorem tick_ksSeed (i : Instr) {s : State} (h : s.seq.phase = .ksSeed) : tick i s = tickSeed s := by rw [tick, h]
theorem tick_ksRun (i : Instr) {s : State} (h : s.seq.phase = .ksRun) : tick i s = tickRun i s := by rw [tick, h]
theorem tick_ksRev (i : Instr) {s : State} (h : s.seq.phase = .ksRev) : tick i s = tickRev i s := by rw [tick, h]
theorem tick_check (i : Instr) {s : State} (h : s.seq.phase = .check) : tick i s = tickCheck i s := by rw [tick, h]
theorem tick_blkLoad (i : Instr) {s : State} (h : s.seq.phase = .blkLoad) : tick i s = tickLoad i s := by rw [tick, h]
theorem tick_blkRound (i : Instr) {s : State} (h : s.seq.phase = .blkRound) : tick i s = tickRound s := by rw [tick, h]
theorem tick_blkStore (i : Instr) {s : State} (h : s.seq.phase = .blkStore) : tick i s = tickStore i s := by rw [tick, h]

/-- A 6-bit counter holds every count the loops reach. -/
theorem counter_toNat {n : Nat} (h : n ≤ 54) : (BitVec.ofNat 6 n).toNat = n := by
  rw [BitVec.toNat_ofNat]
  omega

/-! ### The key loops -/

/-- Inside a key loop: the phase, the schedule so far and the loop's counter (10_state.md R25). -/
def inKeyLoop (p : Phase) (rk : Schedule) (ki : BitVec 6) (s : State) : State :=
  { s with rk := rk, seq := { s.seq with phase := p, ki := ki } }

@[simp] theorem inKeyLoop_ki (p : Phase) (rk : Schedule) (ki : BitVec 6) (s : State) :
    (inKeyLoop p rk ki s).seq.ki = ki := rfl
@[simp] theorem inKeyLoop_rk (p : Phase) (rk : Schedule) (ki : BitVec 6) (s : State) : (inKeyLoop p rk ki s).rk = rk := rfl
@[simp] theorem inKeyLoop_dir (p : Phase) (rk : Schedule) (ki : BitVec 6) (s : State) :
    (inKeyLoop p rk ki s).dir = s.dir := rfl

theorem enterKeyLoop_inKeyLoop (p q : Phase) (rk : Schedule) (ki : BitVec 6) (s : State) :
    enterKeyLoop q (inKeyLoop p rk ki s) = inKeyLoop q rk 0 s := rfl

/-- The end of a command on the schedule writes the schedule of its last loop (45_ecb_controller.md R93). -/
theorem finishSchedule_inKeyLoop (d : Bool) (p : Phase) (rk : Schedule) (ki : BitVec 6) (s : State) :
    finishSchedule d (inKeyLoop p rk ki s) = setSchedule rk d ki (enterPhase .idle s) := rfl

/-! ### `KS_REV`: the swaps -/

/-- The reversal loop on the schedule `rk` after `n` swaps. -/
def afterSwaps (rk : Schedule) (s : State) (n : Nat) : State :=
  inKeyLoop .ksRev ((List.range n).foldl swapRoundKeys rk) (BitVec.ofNat 6 n) s

theorem tickRev_swap (i : Instr) {rk : Schedule} {ki : BitVec 6} (h : ki.toNat < 27) (s : State) :
    tickRev i (inKeyLoop .ksRev rk ki s) = inKeyLoop .ksRev (swapRoundKeys rk ki.toNat) (ki + 1) s := if_pos h

theorem tick_afterSwaps (i : Instr) (rk : Schedule) (s : State) {n : Nat} (hn : n < 27) :
    tick i (afterSwaps rk s n) = afterSwaps rk s (n + 1) := by
  have hki : (BitVec.ofNat 6 n).toNat = n := counter_toNat (by omega)
  rw [tick_ksRev i rfl, afterSwaps, tickRev_swap i (by omega), hki, afterSwaps, List.range_succ, List.foldl_append,
    BitVec.ofNat_add]
  rfl

/-- The loop of `KS_REV` with its exit: the schedule reversed and the flags written (43_key_schedule.md R80). -/
theorem ticks_ksRev (i : Instr) (rk : Schedule) (s : State) : ticks i 28 (inKeyLoop .ksRev rk 0 s) =
    setSchedule (reverseInPlace rk) (if i = .kexpD then true else !s.dir) 27 (enterPhase .idle s) := by
  have hswaps : ticks i 27 (inKeyLoop .ksRev rk 0 s) = inKeyLoop .ksRev (reverseInPlace rk) 27 s :=
    ticks_loop_one (f := afterSwaps rk s) fun _ hk => tick_afterSwaps i rk s hk
  rw [ticks_add i 27 1, hswaps, ticks_one, tick_ksRev i rfl, tickRev, if_neg (by rw [inKeyLoop_ki]; decide)]
  split
  · rw [finishSchedule_inKeyLoop]
  · rw [finishSchedule_inKeyLoop, inKeyLoop_dir]

/-! ### `KS_SEED` and `KS_RUN`: the expansion -/

/-- A schedule whose first `n` round keys are those of `ks` already, the others still those of `rk`. -/
def partSchedule (rk ks : Schedule) (n : Nat) : Schedule := Vector.ofFn fun j => if j.val < n then ks[j] else rk[j]

theorem partSchedule_getElem (rk ks : Schedule) (n : Nat) {j : Nat} (hj : j < 54) :
    (partSchedule rk ks n)[j] = if j < n then ks[j] else rk[j] := by
  simp [partSchedule]

theorem partSchedule_zero (rk ks : Schedule) : partSchedule rk ks 0 = rk :=
  Vector.ext fun j hj => by rw [partSchedule_getElem rk ks 0 hj, if_neg (Nat.not_lt_zero j)]

theorem partSchedule_all (rk ks : Schedule) : partSchedule rk ks 54 = ks :=
  Vector.ext fun j hj => by rw [partSchedule_getElem rk ks 54 hj, if_pos hj]

theorem partSchedule_set (rk ks : Schedule) {n : Nat} (hn : n < 54) :
    (partSchedule rk ks n).set n ks[n] = partSchedule rk ks (n + 1) := by
  refine Vector.ext fun j hj => ?_
  rw [Vector.getElem_set, partSchedule_getElem rk ks n hj, partSchedule_getElem rk ks (n + 1) hj]
  by_cases hnj : n = j
  · subst hnj
    rw [if_pos rfl, if_pos (Nat.lt_succ_self n)]
  · rw [if_neg hnj]
    exact if_congr (by omega) rfl rfl

/-- The schedule while it is derived from the key: the first `n` round keys are written, the others are the old ones. -/
def expandedTo (s : State) (n : Nat) : Schedule := partSchedule s.rk (keySchedule s.key0 s.key1) n

/-- The seeds are the first two round keys (43_key_schedule.md R74). -/
theorem seed_eq_expandedTo (s : State) : (s.rk.set 0 s.key0).set 1 s.key1 = expandedTo s 2 := by
  rw [expandedTo, ← partSchedule_set _ _ (show 1 < 54 by decide), ← partSchedule_set _ _ (show 0 < 54 by decide),
    partSchedule_zero, keySchedule_zero, keySchedule_one]

theorem expandedTo_getElem (s : State) {n j : Nat} (hj : j < 54) (h : j < n) :
    (expandedTo s n)[j] = (keySchedule s.key0 s.key1)[j] :=
  (partSchedule_getElem _ _ _ hj).trans (if_pos h)

/-- One iteration of the recurrence adds one round key (43_key_schedule.md R74). -/
theorem expandedTo_set (s : State) {n : Nat} (hn : n < 52) :
    (expandedTo s (n + 2)).set (n + 2) (nextRoundKey n (expandedTo s (n + 2))[n] (expandedTo s (n + 2))[n + 1]) =
      expandedTo s (n + 3) := by
  rw [expandedTo_getElem s (by omega) (by omega), expandedTo_getElem s (by omega) (by omega),
    ← keySchedule_add_two _ _ (by omega)]
  exact partSchedule_set _ _ (by omega)

/-- The expansion loop after `n` iterations. -/
def afterKeys (s : State) (n : Nat) : State := inKeyLoop .ksRun (expandedTo s (n + 2)) (BitVec.ofNat 6 n) s

theorem tickSeed_eq (s : State) : tickSeed (enterPhase .ksSeed s) =
    inKeyLoop .ksRun ((s.rk.set 0 s.key0).set 1 s.key1) 0 s := rfl

theorem tick_enterSeed (i : Instr) (s : State) : tick i (enterPhase .ksSeed s) = afterKeys s 0 := by
  rw [tick_ksSeed i rfl, tickSeed_eq, seed_eq_expandedTo]
  rfl

theorem tickRun_next (i : Instr) {rk : Schedule} {ki : BitVec 6} (h : ki.toNat < 52) (s : State) :
    tickRun i (inKeyLoop .ksRun rk ki s) =
      inKeyLoop .ksRun (rk.set (ki.toNat + 2) (nextRoundKey ki.toNat rk[ki.toNat] rk[ki.toNat + 1])) (ki + 1) s :=
  dif_pos h

theorem tick_afterKeys (i : Instr) (s : State) {n : Nat} (hn : n < 52) :
    tick i (afterKeys s n) = afterKeys s (n + 1) := by
  have hki : (BitVec.ofNat 6 n).toNat = n := counter_toNat (by omega)
  rw [tick_ksRun i rfl, afterKeys, tickRun_next i (by omega)]
  simp only [hki, expandedTo_set s hn]
  rw [afterKeys, BitVec.ofNat_add]
  rfl

/-- Seed and expansion, up to the exit of `KS_RUN`. -/
theorem ticks_expansion (i : Instr) (s : State) : ticks i 53 (enterPhase .ksSeed s) =
    inKeyLoop .ksRun (keySchedule s.key0 s.key1) 52 s := by
  have hall : expandedTo s 54 = keySchedule s.key0 s.key1 := partSchedule_all ..
  have hloop : ticks i 52 (afterKeys s 0) = inKeyLoop .ksRun (expandedTo s 54) 52 s :=
    ticks_loop_one (f := afterKeys s) fun _ hk => tick_afterKeys i s hk
  rw [ticks_add i 1 52, ticks_one, tick_enterSeed, hloop, hall]

/-- The exit of `KS_RUN`: `KEXP.D` goes on to the reversal, `KEXP.E` ends. -/
theorem tick_expanded (i : Instr) (rk : Schedule) (s : State) : tick i (inKeyLoop .ksRun rk 52 s) =
    if i = .kexpD then inKeyLoop .ksRev rk 0 s else setSchedule rk false 52 (enterPhase .idle s) := by
  rw [tick_ksRun i rfl, tickRun, dif_neg (by rw [inKeyLoop_ki]; decide), enterKeyLoop_inKeyLoop, finishSchedule_inKeyLoop]

/-! ### `BLK_LOAD`, `BLK_ROUND`, `BLK_STORE`: one block -/

/-- The round loop after `n` rounds on the block `b`. -/
def afterRounds (s : State) (b : Word × Word) (n : Nat) : State :=
  { s with
    seq :=
      { s.seq with
        phase := .blkRound
        rc := BitVec.ofNat 6 n
        x := (blockAfterRounds s.rk b n).1
        y := (blockAfterRounds s.rk b n).2 } }

theorem tickLoad_eq (i : Instr) (s : State) : tickLoad i s = afterRounds s (loadedBlock i s) 0 := by
  rw [afterRounds, blockAfterRounds_zero]
  rfl

theorem tick_afterRounds (i : Instr) (s : State) (b : Word × Word) {n : Nat} (hn : n < 54) :
    tick i (afterRounds s b n) = afterRounds s b (n + 1) := by
  have hrc : (afterRounds s b n).seq.rc.toNat = n := counter_toNat (by omega)
  have hround : cipherRound ((afterRounds s b n).seq.x, (afterRounds s b n).seq.y) (afterRounds s b n).rk[n] =
      blockAfterRounds s.rk b (n + 1) := (blockAfterRounds_succ s.rk b hn).symm
  rw [tick_blkRound i rfl, tickRound, dif_pos (by omega)]
  simp only [hrc, hround]
  rw [afterRounds, afterRounds, BitVec.ofNat_add]
  rfl

/-- A block loaded and transformed, up to its store (44_round_function.md R84). -/
def beforeStore (s : State) (o : Word × Word) : State :=
  { s with seq := { s.seq.afterBlock o.1 o.2 with phase := .blkStore } }

theorem tick_afterRounds_exit (i : Instr) (s : State) (b : Word × Word) :
    tick i (afterRounds s b 54) = beforeStore s (transformBlock s.rk b) := by
  have hrc : (afterRounds s b 54).seq.rc.toNat = 54 := rfl
  rw [tick_blkRound i rfl, tickRound, dif_neg (by omega), ← blockAfterRounds_all]
  rfl

theorem ticks_block (i : Instr) {s : State} (h : s.seq.phase = .blkLoad) :
    ticks i 57 s = tickStore i (beforeStore s (transformBlock s.rk (loadedBlock i s))) := by
  have hload : ticks i 1 s = afterRounds s (loadedBlock i s) 0 := (tick_blkLoad i h).trans (tickLoad_eq i s)
  have hrounds : ticks i 54 (afterRounds s (loadedBlock i s) 0) = afterRounds s (loadedBlock i s) 54 :=
    ticks_loop_one fun _ hk => tick_afterRounds i s _ hk
  rw [ticks_add i 1 56, hload, ticks_add i 54 2, hrounds, ticks_add i 1 1, ticks_one, ticks_one, tick_afterRounds_exit,
    tick_blkStore i rfl]

/-! ### The block loop of `ECB` -/

theorem headOfBlocks_enterPhase (p : Phase) (s : State) : headOfBlocks (enterPhase p s) = headOfBlocks s := rfl

/-- A block of `ECB`, from its load to the head of the loop, is an iteration of `ECB`'s meaning. -/
theorem ticks_ecbBlock (s : State) :
    ticks .ecb 57 (enterPhase .blkLoad s) = headOfBlocks (ecbBlock s s.seq.bi.toNat) := by
  have hbi : s.seq.bi + 1 = BitVec.ofNat 60 (s.seq.bi.toNat + 1) := by
    rw [BitVec.ofNat_add, BitVec.ofNat_toNat, BitVec.setWidth_eq]
    rfl
  rw [ticks_block .ecb rfl, tickStore, if_pos rfl, ← headOfBlocks_enterPhase .blkStore (ecbBlock s _), ecbBlock, ← hbi]
  rfl

/-- The block loop after `n` blocks, at its head. -/
def atHead (s : State) (n : Nat) : State := headOfBlocks ((List.range n).foldl ecbBlock s)

theorem ecbBlocks_bi {s : State} (h : s.seq.bi = 0) (n : Nat) :
    ((List.range n).foldl ecbBlock s).seq.bi = BitVec.ofNat 60 n := by
  cases n with
  | zero => exact h
  | succ n => rw [ecbBlocks_succ]; rfl

theorem ecbBlocks_blockCount (s : State) (n : Nat) :
    blockCount ((List.range n).foldl ecbBlock s) = blockCount s := by
  rw [ecbBlocks_frame]
  rfl

theorem ticks_atHead {s : State} (h : s.seq.bi = 0) {n : Nat} (hn : n < (blockCount s).toNat) :
    ticks .ecb 57 (atHead s n) = atHead s (n + 1) := by
  have hbi := ecbBlocks_bi h n
  have hnat : ((List.range n).foldl ecbBlock s).seq.bi.toNat = n := by
    have := (blockCount s).isLt
    rw [hbi, BitVec.toNat_ofNat, Nat.mod_eq_of_lt (by omega)]
  have hmore : ((List.range n).foldl ecbBlock s).seq.bi ≠ blockCount ((List.range n).foldl ecbBlock s) := by
    rw [ecbBlocks_blockCount]
    intro heq
    rw [← heq, hnat] at hn
    omega
  rw [atHead, headOfBlocks, if_neg hmore, ticks_ecbBlock, hnat, ← ecbBlocks_succ, atHead]

theorem ticks_ecbBlocks {s : State} (hbi : s.seq.bi = 0) (hidle : s.seq.phase = .idle) :
    ticks .ecb (57 * (blockCount s).toNat) (headOfBlocks s) =
      setNblk ((blockCount s).setWidth 64) ((List.range (blockCount s).toNat).foldl ecbBlock s) := by
  have hloop : ticks .ecb (57 * (blockCount s).toNat) (headOfBlocks s) = atHead s (blockCount s).toNat :=
    ticks_loop (f := atHead s) fun _ hk => ticks_atHead hbi hk
  have hend : ((List.range (blockCount s).toNat).foldl ecbBlock s).seq.bi = blockCount s := by
    rw [ecbBlocks_bi hbi, BitVec.ofNat_toNat, BitVec.setWidth_eq]
  rw [hloop, atHead, headOfBlocks, ecbBlocks_blockCount, if_pos hend, enterPhase_idle]
  rw [setNblk_seq, ecbBlocks_phase, hidle]

/-! ### From the `CMD` write to `IDLE` -/

/-- An error raised in `CHECK` ends the command in the state its meaning answers. -/
theorem ticks_raise (i : Instr) (n : Nat) (c : ErrCode) (s : State) : ticks i n (raise c s) = raise c s :=
  ticks_idle i n rfl

theorem ticks_kexpE {s : State} (hidle : s.seq.phase = .idle) :
    ticks .kexpE 54 (enterPhase .ksSeed s) = setSchedule (keySchedule s.key0 s.key1) false 52 s := by
  rw [ticks_add _ 53 1, ticks_expansion, ticks_one, tick_expanded, if_neg (by decide), enterPhase_idle hidle]

theorem ticks_kexpD {s : State} (hidle : s.seq.phase = .idle) :
    ticks .kexpD 82 (enterPhase .ksSeed s) = setSchedule (reverseSchedule (keySchedule s.key0 s.key1)) true 27 s := by
  rw [ticks_add _ 53 29, ticks_expansion, ticks_add _ 1 28, ticks_one, tick_expanded, if_pos rfl, ticks_ksRev, if_pos rfl,
    reverseInPlace_eq, enterPhase_idle hidle]

theorem ticks_krev {s : State} (hidle : s.seq.phase = .idle) : ticks .krev 29 (enterPhase .check s) =
    if s.kvalid then setSchedule (reverseInPlace s.rk) (!s.dir) 27 s else raise .noKey s := by
  rw [ticks_add _ 1 28, ticks_one, tick_check _ rfl, tickCheck, enterPhase_kvalid]
  split
  · have hrev := ticks_ksRev .krev s.rk s
    rw [if_neg (by decide), enterPhase_idle hidle] at hrev
    exact hrev
  · exact ticks_raise ..

theorem ticks_blk {s : State} (hidle : s.seq.phase = .idle) : ticks .blk 58 (enterPhase .check s) =
    if s.kvalid then setBlock (transformBlock s.rk (s.blk0, s.blk1)) s else raise .noKey s := by
  rw [ticks_add _ 1 57, ticks_one, tick_check _ rfl, tickCheck, enterPhase_kvalid]
  split
  · conv_rhs => rw [← enterPhase_idle hidle]
    rw [ticks_block _ rfl, tickStore, if_neg (by decide)]
    rfl
  · exact ticks_raise ..

theorem ticks_ecb {s : State} (hidle : s.seq.phase = .idle) :
    ticks .ecb (1 + 57 * (blockCount s).toNat) (enterPhase .check s) = ecbEffect s := by
  rw [ticks_add, ticks_one, tick_check _ rfl]
  by_cases hc : ecbError s = .noError
  · rw [tickCheck_ecb_run (s := enterPhase .check s) hc, ecbEffect_run hc]
    exact ticks_ecbBlocks (s := enterBlocks (setNblk 0 s)) rfl hidle
  · rw [tickCheck_ecb_raise (s := enterPhase .check s) hc, ecbEffect_raise hc]
    exact ticks_raise ..

/-- A command with loops that starts in a state its loops bring to its effect: under fail-stop nothing starts. -/
theorem command_eq_ticks {i : Instr} {n : Nat} {s s' : State} {f : State → State} (hidle : s.seq.phase = .idle)
    (h : ticks i n s' = f s) : command s f = .next (ticks i n (if s.err = .noError then s' else s)) := by
  unfold command
  split
  · rw [h]
  · rw [ticks_idle i n hidle]

/-- The sequencer ends in the state the command's meaning answers. -/
theorem exec_eq_ticks (i : Instr) {s : State} (hidle : s.seq.phase = .idle) :
    exec i s = .next (ticks i (ticksNeeded i s) (startCommand i s)) := by
  cases i with
  | kexpE => exact (exec_kexpE s).trans (command_eq_ticks hidle (ticks_kexpE hidle))
  | kexpD => exact (exec_kexpD s).trans (command_eq_ticks hidle (ticks_kexpD hidle))
  | krev => exact (exec_krev s).trans (command_eq_ticks hidle (ticks_krev hidle))
  | blk => exact (exec_blk s).trans (command_eq_ticks hidle (ticks_blk hidle))
  | ecb => exact (exec_ecb s).trans (command_eq_ticks hidle (ticks_ecb hidle))
  | _ => exact exec_eq_stateAfter _ s

/-! ### The statement -/

/-- Settles O59: the commands with loops by their loops, the others take no tick; every command ends waiting. -/
theorem sequencerAgreesWithCommands : Obligations.SequencerAgreesWithCommands := fun i _ hidle =>
  have hrun := exec_eq_ticks i hidle
  ⟨hrun, (writesItsRow_of_exec hrun).idle hidle⟩

end Sys2Proof.Machine
end

section
/-! SUPPORT and the settled statements about errors (60_exceptions.md). First what each event does to a recorded error,
then what a command that records one has done; last the statements themselves. -/

namespace Sys2Proof.Machine

/-! ### What an event does to a recorded error -/

@[simp] theorem setRegister_err (r : Reg) (v : Word) (s : State) : (setRegister r v s).err = s.err := by
  cases r <;> rfl

theorem resetInside_err (v : Word) (n : Nat) (half : Bool) (s : State) : (resetInside v n half s).err = .noError := by
  unfold resetInside
  split <;> rfl

theorem placeByte_err {a : Word} {b : Byte} {s t : State} (h : placeByte a b s = .next t) : t.err = s.err := by
  obtain ⟨-, hp⟩ | ⟨-, hp⟩ := placeByte_cases a b s
  · cases hp.symm.trans h
    rfl
  · cases hp.symm.trans h

theorem inspectByte_err {a : Word} {s t : State} (h : inspectByte a s = .next t) : t.err = s.err := by
  obtain ⟨-, hp⟩ | ⟨-, hp⟩ := inspectByte_cases a s
  · cases hp.symm.trans h
    exact observe_err ..
  · cases hp.symm.trans h

/-- A write to `CMD` clears a recorded error, if the word is that of `CLRERR`, or leaves it. -/
theorem runCommand_err {v : Word} {s t : State} (he : s.err ≠ .noError) (h : runCommand v s = .next t) :
    t.err = .noError ∨ t.err = s.err := by
  by_cases hv : v = encode .clrerr
  · rw [hv, runCommand_of_ok (decode_encode .clrerr), exec_clrerr] at h
    cases h
    exact .inl (clearError_err s)
  · rw [runCommand_stopped hv he] at h
    cases h
    exact .inr rfl

theorem writeRegister_err {n : BitVec 8} {v : Word} {s t : State} (he : s.err ≠ .noError)
    (h : writeRegister n v s = .next t) : t.err = .noError ∨ t.err = s.err := by
  obtain ⟨-, hw⟩ | ⟨r, -, -, hw⟩ | ⟨-, hw⟩ := writeRegister_cases n v s
  · exact runCommand_err he (hw ▸ h)
  · cases hw.symm.trans h
    exact .inr (setRegister_err ..)
  · cases hw.symm.trans h
    exact .inr rfl

/-- Every event clears a recorded error or leaves it: none puts another in its place (60_exceptions.md R99). -/
theorem perform_err {e : Event} {s t : State} (he : s.err ≠ .noError) (h : perform e s = .next t) :
    t.err = .noError ∨ t.err = s.err := by
  cases e with
  | regWrite n v => exact writeRegister_err he h
  | regRead n => cases h; exact .inr (observe_err ..)
  | memPlace a b => exact .inr (placeByte_err h)
  | memInspect a => exact .inr (inspectByte_err h)
  | reset => cases h; exact .inl (applyReset_err s)
  | resetInside v n half => cases h; exact .inl (resetInside_err ..)

/-! ### What a command that raises has done -/

/-- Only the commands with a check raise (60_exceptions.md R95): `CLRERR` leaves no error, the others leave `ERR`. -/
theorem checked_of_exec_raises {i : Instr} {s t : State} (he : s.err = .noError) (h : exec i s = .next t)
    (ht : t.err ≠ .noError) : i = .krev ∨ i = .blk ∨ i = .ecb := by
  by_contra hi
  obtain ⟨hkrev, hblk, hecb⟩ : i ≠ .krev ∧ i ≠ .blk ∧ i ≠ .ecb := by simpa using hi
  by_cases hclr : i = .clrerr
  · subst hclr
    cases (exec_clrerr s).symm.trans h
    exact ht (clearError_err s)
  · exact ht (((writesItsRow_of_exec h).error ⟨hkrev, hblk, hecb, hclr⟩).trans he)

/-- `KREV` and `BLK` check `KVALID` first; what they do with a schedule leaves `ERR`, so that a state with an error is the
one the check leaves. -/
theorem command_needing_key_raises {f : State → State} {s t : State} (he : s.err = .noError)
    (hidle : s.seq.phase = .idle) (h : command s (fun s => if s.kvalid then f s else raise .noKey s) = .next t)
    (ht : t.err ≠ .noError) (hf : (f s).err = s.err) : t = { s with err := t.err } := by
  cases (command_clear he _).symm.trans h
  split at ht
  next => exact absurd (hf.trans he) ht
  next hv => rw [if_neg hv, raise_clear_of_idle he hidle]

theorem ecbProcess_err (s : State) : (ecbProcess s).err = s.err := by
  rw [ecbProcess_frame]

/-- `ECB` makes all its checks before its first block, and its processing leaves `ERR` (60_exceptions.md R101). -/
theorem exec_ecb_raises {s t : State} (he : s.err = .noError) (hidle : s.seq.phase = .idle)
    (h : exec .ecb s = .next t) (ht : t.err ≠ .noError) : t = { s with err := t.err, nblk := 0 } := by
  by_cases hc : ecbError s = .noError
  · rw [exec_ecb, command_clear he, ecbEffect_run hc] at h
    cases h
    exact absurd ((ecbProcess_err (setNblk 0 s)).trans he) ht
  · cases (exec_ecb_raise he hidle rfl hc).symm.trans h
    rfl

/-! ### The statements -/

/-- Settles O48: under fail-stop a write to `CMD` does nothing, and no event replaces a recorded error. -/
theorem failStopKeepsTheFirstError : Obligations.FailStopKeepsTheFirstError := by
  refine ⟨fun s v rest hh hs he hv => ?_, fun s t h he ht => ?_⟩
  · rw [step_perform hh hs]
    exact runCommand_stopped (s := { s with script := rest }) hv he
  · obtain ⟨-, ⟨-, rfl⟩ | ⟨e, rest, -, hp⟩⟩ := step_cases h
    · rfl
    · exact (perform_err (s := { s with script := rest }) he hp).resolve_left ht

/-- Settles O49, by the three commands that raise. -/
theorem raisingCommandHasNoOtherEffect : Obligations.RaisingCommandHasNoOtherEffect := by
  intro i s t he hidle h ht
  have hi := checked_of_exec_raises he h ht
  refine ⟨hi, ?_⟩
  obtain rfl | rfl | rfl := hi
  · rw [exec_krev] at h
    exact command_needing_key_raises he hidle h ht (setSchedule_err ..)
  · rw [exec_blk] at h
    exact command_needing_key_raises he hidle h ht (setBlock_err ..)
  · exact exec_ecb_raises he hidle h ht

/-- Settles O47: the sequencer goes to `IDLE`, where it stays if it was there. -/
theorem raiseRecordsTheCodeOnly : Obligations.RaiseRecordsTheCodeOnly := fun _ s =>
  ⟨s.seq.toIdle, Sequencer.toIdle_phase s.seq, rfl, Sequencer.toIdle_of_idle s.seq⟩

end Sys2Proof.Machine
end

section
/-! SUPPORT and the settled statements about reset (70_reset_and_hazards.md). First the state a reset leaves; then what
the sequencer leaves unchanged at any iteration, and where the block loop of `ECB` stands at any iteration; then what an
abandoned command has done; last the statements themselves. -/

namespace Sys2Proof.Machine

/-! ### The state a reset leaves -/

theorem applyReset_justReset (s : State) : (applyReset s).JustReset := ⟨rfl, rfl, rfl, rfl, rfl⟩

/-- `STATUS` is composed of control state only (10_state.md R18), so that it reads 0 after every reset. -/
theorem State.JustReset.readStatus {s : State} (h : s.JustReset) : readRegister 0x0A s = 0 := by
  have hstatus : readRegister 0x0A s = statusWord s := readRegister_regNumber .status s
  rw [hstatus, statusWord, h.kvalid, h.dir, h.err]
  rfl

/-- The state a reset inside a command leaves, from the state `t` in which the command is abandoned (log 9). -/
def resetStuck (t : State) : State := { applyReset t with hung := true }

theorem resetStuck_justReset (t : State) : (resetStuck t).JustReset := ⟨rfl, rfl, rfl, rfl, rfl⟩

theorem step_hung {s : State} (h : s.hung = true) : step s = .fault .transactionNeverCompletes := if_pos h

theorem resetInside_of_ok {v : Word} {i : Instr} (h : decode v = .ok i) (n : Nat) (half : Bool) (s : State) :
    resetInside v n half s = resetStuck (abandonAfter i n half s) := by
  rw [resetInside, h]
  rfl

theorem resetInside_of_error {v : Word} {r : Illegal} (h : decode v = .error r) (n : Nat) (half : Bool) (s : State) :
    resetInside v n half s = resetStuck s := by
  rw [resetInside, h]
  rfl

/-! ### What no iteration of the sequencer changes -/

/-- What a command in progress leaves unchanged at every iteration: the platform and the outside, and the memory unless it
is `ECB`, the one command that stores (10_state.md R23). -/
structure LeavesOutside (i : Instr) (s t : State) : Prop where
  absent : t.absent = s.absent
  script : t.script = s.script
  observed : t.observed = s.observed
  memory : i ≠ .ecb → t.mem = s.mem

theorem LeavesOutside.refl (i : Instr) (s : State) : LeavesOutside i s s := ⟨rfl, rfl, rfl, fun _ => rfl⟩

theorem LeavesOutside.trans {i : Instr} {s t u : State} (h : LeavesOutside i s t) (h' : LeavesOutside i t u) :
    LeavesOutside i s u where
  absent := h'.absent.trans h.absent
  script := h'.script.trans h.script
  observed := h'.observed.trans h.observed
  memory hi := (h'.memory hi).trans (h.memory hi)

theorem WritesItsRow.leavesOutside {i : Instr} {s t : State} (h : WritesItsRow i s t) : LeavesOutside i s t :=
  ⟨h.absent, h.script, h.observed, fun hi => (h.memory hi).2⟩

/-- The sequencer's own registers, the schedule and its flags, `ERR` and `NBLK` are no part of the outside. -/
theorem leavesOutside_update (i : Instr) (s : State) (q : Sequencer) (rk : Schedule) (v d : Bool) (e : ErrCode)
    (n : Word) :
    LeavesOutside i s { s with seq := q, rk := rk, kvalid := v, dir := d, err := e, nblk := n } :=
  ⟨rfl, rfl, rfl, fun _ => rfl⟩

theorem tickRun_leavesOutside (i : Instr) (s : State) : LeavesOutside i s (tickRun i s) := by
  unfold tickRun
  split_ifs <;> exact leavesOutside_update ..

theorem tickRev_leavesOutside (i : Instr) (s : State) : LeavesOutside i s (tickRev i s) := by
  unfold tickRev
  split_ifs <;> exact leavesOutside_update ..

theorem headOfBlocks_leavesOutside (i : Instr) (s : State) : LeavesOutside i s (headOfBlocks s) := by
  unfold headOfBlocks
  split <;> exact leavesOutside_update ..

theorem tickCheck_leavesOutside (i : Instr) (s : State) : LeavesOutside i s (tickCheck i s) := by
  cases i with
  | ecb =>
    by_cases hc : ecbError s = .noError
    · rw [tickCheck_ecb_run hc]
      exact (leavesOutside_update ..).trans (headOfBlocks_leavesOutside _ (enterBlocks (setNblk 0 s)))
    · rw [tickCheck_ecb_raise hc]
      exact leavesOutside_update ..
  | krev | blk =>
    dsimp only [tickCheck]
    split <;> exact leavesOutside_update ..
  | _ => exact leavesOutside_update ..

theorem tickRound_leavesOutside (i : Instr) (s : State) : LeavesOutside i s (tickRound s) := by
  unfold tickRound
  split <;> exact leavesOutside_update ..

/-- Only `ECB` stores a block to memory. -/
theorem tickStore_leavesOutside (i : Instr) (s : State) : LeavesOutside i s (tickStore i s) := by
  unfold tickStore
  split
  next hi =>
    refine .trans ?_ (headOfBlocks_leavesOutside ..)
    exact ⟨rfl, rfl, rfl, fun h => absurd hi h⟩
  next => exact ⟨rfl, rfl, rfl, fun _ => rfl⟩

theorem tick_leavesOutside (i : Instr) (s : State) : LeavesOutside i s (tick i s) := by
  unfold tick
  split
  next => exact .refl i s
  next => exact leavesOutside_update ..
  next => exact tickRun_leavesOutside i s
  next => exact tickRev_leavesOutside i s
  next => exact tickCheck_leavesOutside i s
  next => exact leavesOutside_update ..
  next => exact tickRound_leavesOutside i s
  next => exact tickStore_leavesOutside i s

theorem ticks_leavesOutside (i : Instr) (n : Nat) (s : State) : LeavesOutside i s (ticks i n s) := by
  induction n generalizing s with
  | zero => exact .refl i s
  | succ n ih => exact (tick_leavesOutside i s).trans (ih (tick i s))

theorem startCommand_leavesOutside (i : Instr) (s : State) : LeavesOutside i s (startCommand i s) := by
  obtain h | h | h | ⟨-, h⟩ := startCommand_cases i s
  · rw [h]
    exact .refl i s
  · rw [h]
    exact leavesOutside_update ..
  · rw [h]
    exact leavesOutside_update ..
  · exact (writesItsRow_of_exec h).leavesOutside

/-- A command is abandoned at one of its iterations, or inside a store of `ECB` that has written word0 only. -/
theorem abandonAfter_cases (i : Instr) (n : Nat) (half : Bool) (s : State) :
    abandonAfter i n half s = ticks i n (startCommand i s) ∨
      (i = .ecb ∧ (ticks i n (startCommand i s)).seq.phase = .blkStore ∧
        abandonAfter i n half s = storeWord0 (ticks i n (startCommand i s))) := by
  unfold abandonAfter
  dsimp only
  split
  next h =>
    obtain ⟨-, hi, hp⟩ := h
    exact .inr ⟨hi, hp, rfl⟩
  next => exact .inl rfl

theorem abandonAfter_leavesOutside (i : Instr) (n : Nat) (half : Bool) (s : State) :
    LeavesOutside i s (abandonAfter i n half s) := by
  have hticks := (startCommand_leavesOutside i s).trans (ticks_leavesOutside i n _)
  obtain h | ⟨hi, -, h⟩ := abandonAfter_cases i n half s
  · rw [h]
    exact hticks
  · rw [h]
    exact hticks.trans ⟨rfl, rfl, rfl, fun hne => absurd hi hne⟩

/-! ### What the first blocks of `ECB` store -/

/-- The memory once the first `k` blocks are stored. -/
def memoryAfterBlocks (s : State) (k : Nat) : Memory := ((List.range k).foldl ecbBlock s).mem

/-- The output of block `k`, where the first `k` blocks are stored. -/
def outputOfBlock (s : State) (k : Nat) : Word × Word :=
  transformBlock s.rk (readBlock (memoryAfterBlocks s k) (blockSource s k))

theorem memoryAfterBlocks_succ (s : State) (k : Nat) :
    memoryAfterBlocks s (k + 1) = writeBlock (memoryAfterBlocks s k) (blockTarget s k) (outputOfBlock s k) := by
  rw [memoryAfterBlocks, ecbBlocks_succ, ecbBlocks_frame]
  rfl

/-- What `ECB` stores depends on the round keys, the Buffers and the memory only. -/
structure SameBlocks (s t : State) : Prop where
  rk : t.rk = s.rk
  src : t.src = s.src
  dst : t.dst = s.dst
  len : t.len = s.len
  mem : t.mem = s.mem

theorem SameBlocks.memoryAfterBlocks {s t : State} (h : SameBlocks s t) (k : Nat) :
    memoryAfterBlocks t k = memoryAfterBlocks s k := by
  induction k with
  | zero => exact h.mem
  | succ k ih =>
    rw [memoryAfterBlocks_succ, memoryAfterBlocks_succ, outputOfBlock, outputOfBlock, blockTarget, blockTarget,
      blockSource, blockSource, ih, h.rk, h.src, h.dst]

/-- The memory holds the output of the first blocks, and possibly word0 of the next (70_reset_and_hazards.md R112). -/
def HoldsFirstBlocks (s : State) (m : Memory) : Prop :=
  ∃ k, k ≤ (blockCount s).toNat ∧
    (m = memoryAfterBlocks s k ∨
      (k < (blockCount s).toNat ∧ m = writeWord (memoryAfterBlocks s k) (blockTarget s k) (outputOfBlock s k).1))

theorem SameBlocks.holdsFirstBlocks {s t : State} (h : SameBlocks s t) {m : Memory} (hm : HoldsFirstBlocks t m) :
    HoldsFirstBlocks s m := by
  obtain ⟨k, hk⟩ := hm
  rw [outputOfBlock, h.memoryAfterBlocks, blockCount, blockTarget, blockSource, h.rk, h.src, h.dst, h.len] at hk
  exact ⟨k, hk⟩

/-- No block at all. -/
theorem holdsFirstBlocks_self (s : State) : HoldsFirstBlocks s s.mem := ⟨0, Nat.zero_le _, .inl rfl⟩

/-! ### Where the block loop of `ECB` stands at any iteration -/

/-- The state `t` has `k` blocks stored; where the sequencer is about to store, it is block `k` of the Buffer. -/
structure AtBlock (s : State) (k : Nat) (t : State) : Prop where
  inBuffer : k ≤ (blockCount s).toNat
  memory : t.mem = memoryAfterBlocks s k
  store : t.seq.phase = .blkStore →
    k < (blockCount s).toNat ∧ blockTarget t t.seq.bi.toNat = blockTarget s k ∧ t.seq.x = (outputOfBlock s k).1

theorem AtBlock.holdsFirstBlocks {s t : State} {k : Nat} (h : AtBlock s k t) : HoldsFirstBlocks s t.mem :=
  ⟨k, h.inBuffer, .inl h.memory⟩

/-- A store cut in half adds word0 of the block that is due. -/
theorem AtBlock.holdsFirstBlocks_storeWord0 {s t : State} {k : Nat} (h : AtBlock s k t) (hp : t.seq.phase = .blkStore) :
    HoldsFirstBlocks s (storeWord0 t).mem := by
  obtain ⟨hk, htarget, hx⟩ := h.store hp
  refine ⟨k, hk.le, .inr ⟨hk, ?_⟩⟩
  rw [storeWord0, htarget, hx, h.memory]

/-- The 57 ticks of a block store only at the last: before it the block is loaded and transformed. -/
theorem ticks_inBlock (i : Instr) {s : State} (hp : s.seq.phase = .blkLoad) {r : Nat} (hr : r < 57) :
    ((ticks i r s).mem = s.mem ∧ (ticks i r s).seq.phase ≠ .blkStore) ∨
      ticks i r s = beforeStore s (transformBlock s.rk (loadedBlock i s)) := by
  have hrounds {m : Nat} (hm : m ≤ 54) : ticks i (1 + m) s = afterRounds s (loadedBlock i s) m := by
    rw [ticks_add, ticks_one, tick_blkLoad i hp, tickLoad_eq]
    exact ticks_loop_one fun _ hk => tick_afterRounds i s _ (by omega)
  obtain rfl | ⟨hpos, hle⟩ | rfl : r = 0 ∨ (1 ≤ r ∧ r ≤ 55) ∨ r = 1 + 54 + 1 := by omega
  · exact .inl ⟨rfl, by rw [ticks, hp]; decide⟩
  · obtain ⟨m, rfl⟩ := Nat.exists_eq_add_of_le hpos
    rw [hrounds (by omega)]
    exact .inl ⟨rfl, nofun⟩
  · rw [ticks_add i (1 + 54) 1, hrounds le_rfl, ticks_one, tick_afterRounds_exit]
    exact .inr rfl

theorem ecbBlocks_bi_toNat {s : State} (h : s.seq.bi = 0) {k : Nat} (hk : k ≤ (blockCount s).toNat) :
    ((List.range k).foldl ecbBlock s).seq.bi.toNat = k := by
  have := (blockCount s).isLt
  rw [ecbBlocks_bi h, BitVec.toNat_ofNat, Nat.mod_eq_of_lt (by omega)]

/-- While blocks are left, the head of the loop goes to load the next. -/
theorem atHead_of_lt {s : State} (h : s.seq.bi = 0) {k : Nat} (hk : k < (blockCount s).toNat) :
    atHead s k = enterPhase .blkLoad ((List.range k).foldl ecbBlock s) := by
  rw [atHead, headOfBlocks, ecbBlocks_blockCount, if_neg]
  intro heq
  have hbi := ecbBlocks_bi_toNat h hk.le
  rw [heq] at hbi
  omega

/-- With every block stored, the head of the loop ends the command. -/
theorem atHead_blockCount {s : State} (h : s.seq.bi = 0) : (atHead s (blockCount s).toNat).seq.phase = .idle := by
  rw [atHead, headOfBlocks, ecbBlocks_blockCount, if_pos]
  · rfl
  · rw [ecbBlocks_bi h, BitVec.ofNat_toNat, BitVec.setWidth_eq]

theorem atHead_mem (s : State) (k : Nat) : (atHead s k).mem = memoryAfterBlocks s k := by
  rw [atHead, headOfBlocks]
  split <;> rfl

theorem blockTarget_ecbBlocks (s : State) (k j : Nat) :
    blockTarget ((List.range k).foldl ecbBlock s) j = blockTarget s j := by
  rw [ecbBlocks_frame]
  rfl

/-- What the sequencer has transformed when it comes to store block `k` is that block's output. -/
theorem transformBlock_loadedBlock {s : State} (h : s.seq.bi = 0) {k : Nat} (hk : k < (blockCount s).toNat) :
    transformBlock (atHead s k).rk (loadedBlock .ecb (atHead s k)) = outputOfBlock s k := by
  have hbi : (atHead s k).seq.bi.toNat = k := by
    rw [atHead_of_lt h hk]
    exact ecbBlocks_bi_toNat h hk.le
  rw [loadedBlock, if_pos rfl, hbi, atHead_mem, atHead_of_lt h hk, ecbBlocks_frame]
  rfl

/-- Between two heads of the loop. -/
theorem ticks_atHead_atBlock {s : State} (h : s.seq.bi = 0) {k r : Nat} (hk : k < (blockCount s).toNat) (hr : r < 57) :
    AtBlock s k (ticks .ecb r (atHead s k)) := by
  have hload : (atHead s k).seq.phase = .blkLoad := by rw [atHead_of_lt h hk]; rfl
  have htarget : blockTarget (atHead s k) (atHead s k).seq.bi.toNat = blockTarget s k := by
    rw [atHead_of_lt h hk]
    exact (blockTarget_ecbBlocks ..).trans (congrArg _ (ecbBlocks_bi_toNat h hk.le))
  obtain ⟨hm, hp⟩ | hstore := ticks_inBlock .ecb hload hr
  · exact ⟨hk.le, hm.trans (atHead_mem s k), fun h => absurd h hp⟩
  · rw [hstore, transformBlock_loadedBlock h hk]
    exact ⟨hk.le, atHead_mem s k, fun _ => ⟨hk, htarget, rfl⟩⟩

/-- Any iteration of the block loop is inside one of its blocks, or past the last. -/
theorem ticks_ecbLoop_atBlock {s : State} (h : s.seq.bi = 0) (n : Nat) :
    ∃ k, AtBlock s k (ticks .ecb n (atHead s 0)) := by
  have hheads {q : Nat} (hq : q ≤ (blockCount s).toNat) : ticks .ecb (57 * q) (atHead s 0) = atHead s q :=
    ticks_loop (f := atHead s) fun _ hk => ticks_atHead h (by omega)
  by_cases hn : n / 57 < (blockCount s).toNat
  · rw [← Nat.div_add_mod n 57, ticks_add, hheads hn.le]
    exact ⟨_, ticks_atHead_atBlock h hn (Nat.mod_lt n (by decide))⟩
  · obtain ⟨m, rfl⟩ := Nat.exists_eq_add_of_le (show 57 * (blockCount s).toNat ≤ n by omega)
    have hidle := atHead_blockCount h
    rw [ticks_add, hheads le_rfl, ticks_idle .ecb m hidle]
    exact ⟨_, le_rfl, atHead_mem s _, fun hp => absurd (hidle.symm.trans hp) (by decide)⟩

/-! ### An `ECB` abandoned -/

/-- An `ECB` that is ignored, or that `CHECK` refuses, has neither stored anything nor come to a store. -/
theorem ticks_ecb_refused {s : State} (hidle : s.seq.phase = .idle) (hno : s.err ≠ .noError ∨ ecbError s ≠ .noError)
    (n : Nat) : (ticks .ecb n (startCommand .ecb s)).mem = s.mem ∧
      (ticks .ecb n (startCommand .ecb s)).seq.phase ≠ .blkStore := by
  by_cases he : s.err = .noError
  · have hc : ecbError (enterPhase .check s) ≠ .noError := hno.resolve_left (not_not.2 he)
    have hstart : startCommand .ecb s = enterPhase .check s := if_pos he
    rw [hstart]
    cases n with
    | zero => exact ⟨rfl, nofun⟩
    | succ n =>
      rw [ticks, tick_check .ecb rfl, tickCheck_ecb_raise hc, ticks_raise]
      exact ⟨rfl, nofun⟩
  · have hstart : startCommand .ecb s = s := if_neg he
    rw [hstart, ticks_idle .ecb n hidle, hidle]
    exact ⟨rfl, nofun⟩

/-- An `ECB` that passes its checks comes to its block loop, which processes the Buffers as `ECB` found them. -/
theorem ticks_ecb_atBlock {s : State} (he : s.err = .noError) (hc : ecbError s = .noError) (n : Nat) :
    ∃ t k, SameBlocks s t ∧ AtBlock t k (ticks .ecb n (startCommand .ecb s)) := by
  have hstart : startCommand .ecb s = enterPhase .check s := if_pos he
  rw [hstart]
  cases n with
  | zero => exact ⟨s, 0, ⟨rfl, rfl, rfl, rfl, rfl⟩, Nat.zero_le _, rfl, nofun⟩
  | succ n =>
    rw [ticks, tick_check .ecb rfl, tickCheck_ecb_run (s := enterPhase .check s) hc]
    obtain ⟨k, hk⟩ := ticks_ecbLoop_atBlock (s := enterBlocks (setNblk 0 (enterPhase .check s))) rfl n
    exact ⟨enterBlocks (setNblk 0 (enterPhase .check s)), k, ⟨rfl, rfl, rfl, rfl, rfl⟩, hk⟩

theorem abandonAfter_ecb_refused {s : State} (hidle : s.seq.phase = .idle)
    (hno : s.err ≠ .noError ∨ ecbError s ≠ .noError) (n : Nat) (half : Bool) :
    (abandonAfter .ecb n half s).mem = s.mem := by
  obtain ⟨hm, hp⟩ := ticks_ecb_refused hidle hno n
  obtain h | ⟨-, hstore, -⟩ := abandonAfter_cases .ecb n half s
  · rw [h, hm]
  · exact absurd hstore hp

theorem abandonAfter_ecb_holdsFirstBlocks {s : State} (hidle : s.seq.phase = .idle) (n : Nat) (half : Bool) :
    HoldsFirstBlocks s (abandonAfter .ecb n half s).mem := by
  by_cases hrun : s.err = .noError ∧ ecbError s = .noError
  · obtain ⟨t, k, hsame, hat⟩ := ticks_ecb_atBlock hrun.1 hrun.2 n
    apply hsame.holdsFirstBlocks
    obtain h | ⟨-, hp, h⟩ := abandonAfter_cases .ecb n half s
    · rw [h]
      exact hat.holdsFirstBlocks
    · rw [h]
      exact hat.holdsFirstBlocks_storeWord0 hp
  · rw [abandonAfter_ecb_refused hidle (not_and_or.1 hrun)]
    exact holdsFirstBlocks_self s

/-! ### The command a reset abandons -/

/-- What a write of `v` to `CMD` in state `s` may have done when a reset abandons it in state `t`. -/
structure AbandonedIn (v : Word) (s t : State) : Prop where
  absent : t.absent = s.absent
  script : t.script = s.script
  observed : t.observed = s.observed
  other : decode v ≠ .ok .ecb → t.mem = s.mem
  refused : s.err ≠ .noError ∨ ecbError s ≠ .noError → t.mem = s.mem
  blocks : decode v = .ok .ecb → HoldsFirstBlocks s t.mem

/-- A word that is no command's has done nothing. -/
theorem abandonedIn_self (v : Word) (s : State) : AbandonedIn v s s :=
  ⟨rfl, rfl, rfl, fun _ => rfl, fun _ => rfl, fun _ => holdsFirstBlocks_self s⟩

theorem abandonedIn_abandonAfter {v : Word} {i : Instr} (hv : decode v = .ok i) {s : State}
    (hidle : s.seq.phase = .idle) (n : Nat) (half : Bool) : AbandonedIn v s (abandonAfter i n half s) := by
  obtain ⟨habsent, hscript, hobserved, hmem⟩ := abandonAfter_leavesOutside i n half s
  refine ⟨habsent, hscript, hobserved, fun h => hmem fun hi => h (hi ▸ hv), fun hno => ?_, fun h => ?_⟩
  · by_cases hi : i = .ecb
    · subst hi
      exact abandonAfter_ecb_refused hidle hno n half
    · exact hmem hi
  · cases hv.symm.trans h
    exact abandonAfter_ecb_holdsFirstBlocks hidle n half

/-- Every reset inside a command resets the core from a state in which the command was abandoned. -/
theorem resetInside_eq_resetStuck (v : Word) (n : Nat) (half : Bool) {s : State} (hidle : s.seq.phase = .idle) :
    ∃ t, resetInside v n half s = resetStuck t ∧ AbandonedIn v s t := by
  cases hv : decode v with
  | ok i => exact ⟨_, resetInside_of_ok hv n half s, abandonedIn_abandonAfter hv hidle n half⟩
  | error r => exact ⟨s, resetInside_of_error hv n half s, abandonedIn_self v s⟩

/-! ### The statements -/

/-- Settles O55: the event is `applyReset`, which leaves memory, the platform and the outside. -/
theorem resetEventClearsTheControlState : Obligations.ResetEventClearsTheControlState := by
  intro s rest hh hs
  have hreset := applyReset_justReset { s with script := rest }
  exact ⟨_, step_perform hh hs, hreset, rfl, rfl, rfl, rfl, hh, hreset.readStatus⟩

/-- Settles O56: the core is reset from the state the command was abandoned in; taking the event off the script changes
nothing the blocks of `ECB` depend on. -/
theorem resetInsideCommandKeepsStoredBlocks : Obligations.ResetInsideCommandKeepsStoredBlocks := by
  intro s v n half rest hh hidle hs
  obtain ⟨t, ht, hcut⟩ := resetInside_eq_resetStuck v n half (s := { s with script := rest }) hidle
  have hstep : step s = .next (resetStuck t) := ht ▸ step_perform hh hs
  have hsame : SameBlocks s { s with script := rest } := ⟨rfl, rfl, rfl, rfl, rfl⟩
  exact ⟨resetStuck t, hstep, resetStuck_justReset t, rfl, step_hung rfl, hcut.absent, hcut.observed, hcut.script,
    hcut.other, hcut.refused, fun hv => hsame.holdsFirstBlocks (hcut.blocks hv)⟩

end Sys2Proof.Machine
end

section
/-! SUPPORT and the settled statements about `DIR`, the check on a region, the host's events and its script lines
(10_state.md R18, 20_memory.md, 30_encoding.md R57 to R59, 60_exceptions.md R109). First that `DIR` stands apart from the
data path; then the steps on the host's events; then the script lines, form by form; last the statements themselves. -/

namespace Sys2Proof.Machine

/-! ### `DIR` and the data path -/

/-- The state with `DIR` set to `d` (10_state.md R18). -/
def setDir (d : Bool) (s : State) : State := { s with dir := d }

/-- When a change of the state leaves `ERR` and commutes with a command's effect, the command gives the same result with
the change made before it or after it. -/
theorem command_commutes {f g : State → State} {s : State} (herr : (g s).err = s.err) (hf : f (g s) = g (f s)) :
    ∃ t, command s f = .next t ∧ command (g s) f = .next (g t) := by
  by_cases he : s.err = .noError
  · exact ⟨f s, command_clear he f, by rw [command_clear (herr.trans he), hf]⟩
  · exact ⟨s, command_stopped he f, command_stopped (herr ▸ he) f⟩

/-- The checks of `ECB` do not read `DIR` (45_ecb_controller.md R91). -/
theorem ecbError_setDir (d : Bool) (s : State) : ecbError (setDir d s) = ecbError s := rfl

theorem ecbBlock_setDir (d : Bool) (s : State) (i : Nat) : ecbBlock (setDir d s) i = setDir d (ecbBlock s i) := rfl

theorem ecbProcess_setDir (d : Bool) (s : State) : ecbProcess (setDir d s) = setDir d (ecbProcess s) :=
  congrArg (setNblk ((blockCount s).setWidth 64)) (List.foldl_hom (setDir d) (init := enterBlocks s) (ecbBlock_setDir d))

theorem ecbEffect_setDir (d : Bool) (s : State) : ecbEffect (setDir d s) = setDir d (ecbEffect s) := by
  by_cases hc : ecbError s = .noError
  · rw [ecbEffect_run hc, ecbEffect_run ((ecbError_setDir d s).trans hc)]
    exact ecbProcess_setDir d (setNblk 0 s)
  · rw [ecbEffect_raise hc, ecbEffect_raise ((ecbError_setDir d s).trans_ne hc), ecbError_setDir]
    rfl

/-! ### Steps on the host's events -/

/-- The number 0x09 selects `CMD`, so that a step whose event writes it runs the word (30_encoding.md R59). -/
theorem step_writeCmd {s : State} {v : Word} {rest : List Event} (hh : s.hung = false)
    (hs : s.script = .regWrite 0x09 v :: rest) : step s = runCommand v { s with script := rest } :=
  step_perform hh hs

/-- Between transactions an illegal word records `E_ILLCMD` and changes nothing else (30_encoding.md R54). -/
theorem illegalCommand_clear_of_idle {s : State} (he : s.err = .noError) (hidle : s.seq.phase = .idle) :
    illegalCommand s = .next { s with err := .illCmd } := by
  rw [illegalCommand_clear he, raise_clear_of_idle he hidle]

/-- While an error is recorded an illegal word does nothing (30_encoding.md R54). -/
theorem illegalCommand_stopped {s : State} (he : s.err ≠ .noError) : illegalCommand s = .next s := command_stopped he _

/-- The host places a byte that exists (20_memory.md R31). -/
theorem step_memPlace {s : State} {a : Word} {b : Byte} {rest : List Event} (hh : s.hung = false)
    (hs : s.script = .memPlace a b :: rest) (hp : memPresent s.absent a.toNat = true) :
    step s = .next { s with script := rest, mem := writeByte s.mem a.toNat b } :=
  (step_perform hh hs).trans (if_pos hp)

/-- The host reads a byte that exists (20_memory.md R31). -/
theorem step_memInspect {s : State} {a : Word} {rest : List Event} (hh : s.hung = false)
    (hs : s.script = .memInspect a :: rest) (hp : memPresent s.absent a.toNat = true) :
    step s = .next { s with script := rest, observed := .byte a (readByte s.mem a.toNat) :: s.observed } :=
  (step_perform hh hs).trans (if_pos hp)

/-- Placing or reading a byte that does not exist stops the step (log 8). -/
theorem step_absentByte {s : State} {a : Word} (b : Byte) {rest : List Event} (hh : s.hung = false)
    (hs : s.script = .memPlace a b :: rest ∨ s.script = .memInspect a :: rest)
    (hp : memPresent s.absent a.toNat = false) : step s = .fault (.absentByte a) := by
  have hneg : ¬ memPresent s.absent a.toNat = true := by simp [hp]
  obtain hs | hs := hs
  · exact (step_perform hh hs).trans (if_neg hneg)
  · exact (step_perform hh hs).trans (if_neg hneg)

/-! ### The six forms of a script line -/

theorem eventsOf_wr {r : RegRef} {v : Nat} (hr : r.wellFormed = true) (hv : v < 2 ^ 64) :
    eventsOf (.wr r v) = some [.regWrite (RegRef.toNumber r) (BitVec.ofNat 64 v)] :=
  if_pos (Bool.and_eq_true_iff.2 ⟨hr, decide_eq_true hv⟩)

/-- A register name is always well-formed (30_encoding.md R57). -/
theorem eventsOf_wr_name (r : Reg) {v : Nat} (hv : v < 2 ^ 64) : eventsOf (.wr (.name r) v) = some [writeOf r v] :=
  eventsOf_wr rfl hv

theorem eventsOf_rd {r : RegRef} (hr : r.wellFormed = true) : eventsOf (.rd r) = some [.regRead (RegRef.toNumber r)] :=
  if_pos hr

theorem takesNoOperand_iff {i : Instr} : i.takesNoOperand = true ↔ ∀ s, i ≠ .rotl s := by
  cases i <;> simp [Instr.takesNoOperand]

theorem takesNoOperand_of_isPlainUnit {u : Instr} (h : u.isPlainUnit = true) : u.takesNoOperand = true :=
  takesNoOperand_iff.2 fun s hs => by subst hs; cases h

theorem eventsOf_cmd {i : Instr} (h : i.takesNoOperand = true) : eventsOf (.cmd i) = some [commandOf i] := if_pos h

theorem eventsOf_cmdRotl {s : Nat} (h : s < 64) : eventsOf (.cmdRotl s) = some [commandOf (.rotl (BitVec.ofNat 6 s))] :=
  if_pos (decide_eq_true h)

/-- A command without an immediate is its row's `match` (30_encoding.md R52). -/
theorem encode_eq_pattern {i : Instr} (hi : ∀ n, i ≠ .rotl n) : encode i = (rowOf i).pattern := by
  cases i with
  | rotl n => exact absurd rfl (hi n)
  | _ => rfl

/-- The bytes go one by one from the lowest address (30_encoding.md R57; log 8). -/
theorem placeBytes_eq_map (addr : Nat) (bytes : List Nat) :
    placeBytes addr bytes = (List.range bytes.length).map fun k =>
      .memPlace (BitVec.ofNat 64 (addr + k)) (BitVec.ofNat 8 (bytes.getD k 0)) := by
  induction bytes generalizing addr with
  | nil => rfl
  | cons b rest ih =>
    rw [placeBytes, ih, List.length_cons, List.range_succ_eq_map, List.map_cons, List.map_map]
    simp [Function.comp_def, Nat.add_assoc, Nat.add_comm 1]

theorem eventsOf_memSet {addr : Nat} {bytes : List Nat} (hrange : addr + bytes.length ≤ 2 ^ 64)
    (hbytes : ∀ b ∈ bytes, b < 256) : eventsOf (.memSet addr bytes.length bytes) = some (placeBytes addr bytes) :=
  if_pos (by simpa [ScriptLine.wellFormed, isAddressRange] using ⟨hrange, hbytes⟩)

theorem eventsOf_memGet {addr n : Nat} (h : addr + n ≤ 2 ^ 64) :
    eventsOf (.memGet addr n) = some ((List.range n).map fun k => .memInspect (BitVec.ofNat 64 (addr + k))) :=
  if_pos (decide_eq_true h)

/-! ### The pseudo-instructions -/

theorem eventsOf_setkey {k0 k1 : Nat} (h0 : k0 < 2 ^ 64) (h1 : k1 < 2 ^ 64) :
    eventsOf (.setkey k0 k1) = some [writeOf .key0 k0, writeOf .key1 k1] :=
  if_pos (by simpa [ScriptLine.wellFormed, isWordLiteral] using ⟨h0, h1⟩)

theorem eventsOf_ldblk {w0 w1 : Nat} (h0 : w0 < 2 ^ 64) (h1 : w1 < 2 ^ 64) :
    eventsOf (.ldblk w0 w1) = some [writeOf .blk0 w0, writeOf .blk1 w1] :=
  if_pos (by simpa [ScriptLine.wellFormed, isWordLiteral] using ⟨h0, h1⟩)

/-- The check that `setbuf`, `encrypt` and `decrypt` make of their three operands (30_encoding.md R58). -/
theorem bufferOperands_wellFormed {a b n : Nat} (ha : a < 2 ^ 64) (hb : b < 2 ^ 64) (hn : n < 2 ^ 64) :
    (isWordLiteral a && isWordLiteral b && isWordLiteral n) = true := by
  simpa [isWordLiteral, and_assoc] using ⟨ha, hb, hn⟩

theorem eventsOf_unit {u : Instr} {a : Nat} (hu : u.isPlainUnit = true) (ha : a < 2 ^ 64) :
    eventsOf (.unit u a) = some [writeOf .opa a, commandOf u, .regRead (regNumber .res)] :=
  if_pos (Bool.and_eq_true_iff.2 ⟨hu, decide_eq_true ha⟩)

theorem eventsOf_rotl {a s : Nat} (ha : a < 2 ^ 64) (hs : s < 64) : eventsOf (.rotl a s)
    = some [writeOf .opa a, commandOf (.rotl (BitVec.ofNat 6 s)), .regRead (regNumber .res)] :=
  if_pos (Bool.and_eq_true_iff.2 ⟨decide_eq_true ha, decide_eq_true hs⟩)

/-- A line with its events goes before the rest of the script. -/
theorem scriptEvents_cons {line : ScriptLine} {es : List Event} (h : eventsOf line = some es) (rest : List ScriptLine) :
    scriptEvents (line :: rest) = (scriptEvents rest).map (es ++ ·) := by
  rw [scriptEvents, h]
  cases scriptEvents rest <;> rfl

/-- A line is the expansion it stands for when its events are those of the lines, in their order. -/
theorem scriptEvents_expand {line : ScriptLine} {es : List Event} {lines : List ScriptLine}
    (hline : eventsOf line = some es) (hlines : scriptEvents lines = some es) :
    scriptEvents [line] = scriptEvents lines := by
  rw [scriptEvents_cons hline, hlines, scriptEvents, Option.map_some, List.append_nil]

/-- `unit` and `rotl` alike: write `OPA`, issue the command, read `RES` (30_encoding.md R58). -/
theorem scriptEvents_unary {a : Nat} (ha : a < 2 ^ 64) {line : ScriptLine} {i : Instr}
    (h : eventsOf line = some [commandOf i]) : scriptEvents [.wr (.name .opa) a, line, .rd (.name .res)]
      = some [writeOf .opa a, commandOf i, .regRead (regNumber .res)] := by
  rw [scriptEvents_cons (eventsOf_wr_name .opa ha), scriptEvents_cons h, scriptEvents_cons (eventsOf_rd rfl)]
  rfl

/-- `encrypt` and `decrypt` alike: expand the key, describe the Buffers, run `ECB` (30_encoding.md R58). -/
theorem scriptEvents_cipher {a b n : Nat} (ha : a < 2 ^ 64) (hb : b < 2 ^ 64) (hn : n < 2 ^ 64) {i : Instr}
    (hi : i.takesNoOperand = true) : scriptEvents [.cmd i, .setbuf a b n, .cmd .ecb]
      = some (commandOf i :: setBuffer a b n ++ [commandOf .ecb]) := by
  have hbuf : eventsOf (.setbuf a b n) = some (setBuffer a b n) := if_pos (bufferOperands_wellFormed ha hb hn)
  rw [scriptEvents_cons (eventsOf_cmd hi), scriptEvents_cons hbuf, scriptEvents_cons (eventsOf_cmd rfl)]
  rfl

/-! ### The statements -/

/-- Settles O27: setting `DIR` commutes with the effect of `BLK`, by whether there is a schedule, and with that of `ECB`,
check by check and block by block. -/
theorem dataPathDoesNotReadDir : Obligations.DataPathDoesNotReadDir := by
  refine fun s d => ⟨?_, command_commutes (g := setDir d) rfl (ecbEffect_setDir d s)⟩
  rw [exec_blk, exec_blk]
  refine command_commutes (g := setDir d) rfl ?_
  cases hv : s.kvalid with
  | true => exact (if_pos hv).trans rfl
  | false => exact if_neg (by simp [setDir, hv])

/-- Settles O51: a region fails the check exactly when one of its bytes does not exist. -/
theorem presenceCheckCoversEveryByte : Obligations.PresenceCheckCoversEveryByte := by
  intro holes base len
  rw [← not_iff_not, Bool.not_eq_true, regionPresent_eq_false_iff]
  simp only [not_forall, Bool.not_eq_true, exists_prop]

/-- Settles O60, form by form, then each pseudo-instruction against the lines it stands for. -/
theorem pseudoInstructionsExpand : Obligations.PseudoInstructionsExpand := by
  refine ⟨rfl, fun _ => rfl, fun r v hv => eventsOf_wr_name r hv, fun n v hn hv => eventsOf_wr (decide_eq_true hn) hv,
    fun r => eventsOf_rd rfl, fun n hn => eventsOf_rd (decide_eq_true hn), fun i hi => ?cmd, fun s hs => ?cmdRotl,
    fun addr bytes hrange hbytes => ?memSet, fun addr n h => eventsOf_memGet h,
    ⟨rfl, fun line rest es more hline hrest => ?script⟩, fun k0 k1 h0 h1 => ?setkey, fun w0 w1 h0 h1 => ?ldblk,
    fun a b n ha hb hn => ⟨?setbuf, ?encrypt, ?decrypt⟩, fun u a hu ha => ?unit, fun a s ha hs => ?rotl⟩
  case cmd => rw [eventsOf_cmd (takesNoOperand_iff.2 hi), commandOf, encode_eq_pattern hi]; rfl
  case cmdRotl =>
    rw [eventsOf_cmdRotl hs, commandOf, encode_rotl, BitVec.toNat_ofNat, Nat.mod_eq_of_lt hs]
    rfl
  case memSet => rw [eventsOf_memSet hrange hbytes, placeBytes_eq_map]
  case script => rw [scriptEvents_cons hline, hrest, Option.map_some]
  case setkey =>
    refine scriptEvents_expand (eventsOf_setkey h0 h1) ?_
    rw [scriptEvents_cons (eventsOf_wr_name .key0 h0), scriptEvents_cons (eventsOf_wr_name .key1 h1)]
    rfl
  case ldblk =>
    refine scriptEvents_expand (eventsOf_ldblk h0 h1) ?_
    rw [scriptEvents_cons (eventsOf_wr_name .blk0 h0), scriptEvents_cons (eventsOf_wr_name .blk1 h1)]
    rfl
  case setbuf =>
    refine scriptEvents_expand (if_pos (bufferOperands_wellFormed ha hb hn)) ?_
    rw [scriptEvents_cons (eventsOf_wr_name .src ha), scriptEvents_cons (eventsOf_wr_name .dst hb),
      scriptEvents_cons (eventsOf_wr_name .len hn)]
    rfl
  case encrypt =>
    exact scriptEvents_expand (if_pos (bufferOperands_wellFormed ha hb hn)) (scriptEvents_cipher ha hb hn rfl)
  case decrypt =>
    exact scriptEvents_expand (if_pos (bufferOperands_wellFormed ha hb hn)) (scriptEvents_cipher ha hb hn rfl)
  case unit =>
    exact scriptEvents_expand (eventsOf_unit hu ha)
      (scriptEvents_unary ha (eventsOf_cmd (takesNoOperand_of_isPlainUnit hu)))
  case rotl => exact scriptEvents_expand (eventsOf_rotl ha hs) (scriptEvents_unary ha (eventsOf_cmdRotl hs))

/-- Settles O3: the fifteen legal words are the encodings of what they decode to; of the four others one has no assigned
opcode, one a stray immediate, and two a bit above 13. -/
theorem wordsOfTheSpecDecode : Obligations.WordsOfTheSpecDecode :=
  ⟨decode_encode .nop, decode_encode .kexpE, decode_encode .kexpD, decode_encode .krev, decode_encode .blk,
    decode_encode .ecb, decode_encode .clrerr, decode_encode (.rotl 0), decode_encode (.rotl 63),
    decode_encode (.rotl 24), decode_encode .perm, decode_encode .g0, decode_encode .g1, decode_encode .a16x3,
    decode_encode .frnd, rfl, rfl, decode_of_fieldZero_ne (by decide), decode_of_fieldZero_ne (by decide)⟩

/-- Settles O6: the step is the write to `CMD`, which does what the decoder says of the word. -/
theorem stepRunsTheDecodedCommand : Obligations.StepRunsTheDecodedCommand := by
  intro s v rest hh hs
  have hstep := step_writeCmd hh hs
  refine ⟨hstep, fun i hd => hstep.trans (runCommand_of_ok hd _), fun r hd => ?_⟩
  rw [hstep, runCommand_of_error hd]
  exact ⟨fun he hidle => illegalCommand_clear_of_idle he hidle, fun he => illegalCommand_stopped he⟩

/-- Settles O7: with no event the step answers the state it was given. -/
theorem idleStepChangesNothing : Obligations.IdleStepChangesNothing := by
  intro s hh hs
  rw [step, if_neg (by simp [hh]), hs]

/-- Settles O53, by the event and by whether the byte exists. -/
theorem hostMemoryAccess : Obligations.HostMemoryAccess := by
  intro s a rest hh hm
  refine ⟨fun b hs hp => ?_, step_memInspect hh, fun b => step_absentByte b hh⟩
  exact ⟨writeByte s.mem a.toNat b, step_memPlace hh hs hp, readByte_writeByte_self hm _ b,
    fun c hc => readByte_writeByte_ne _ b hc⟩

end Sys2Proof.Machine
end
